-- ==== Sys2Proof/Word.lean ====
section
/-! DEFINITION. The bit-vector types of the block and nothing else.
What the spec treats as bits is a bit vector; sample indices and counts are natural numbers
(00_scope.md R2: "unbounded natural in the model"). -/

namespace Sys2Proof

/-- One acquired bit value (42_field_extractor.md R164). -/
abbrev Bit := BitVec 1

/-- The bit counter `k` of a word, 0 to 31 (10_state.md R42). -/
abbrev BitIndex := BitVec 5

/-- The 16-bit dispatch word (30_encoding.md R100). -/
abbrev DispatchWord := BitVec 16

/-- An IEEE 754 binary64 datum, held as its 64-bit encoding (43_value_scaler.md R209). -/
abbrev Binary64 := BitVec 64

end Sys2Proof
end

