-- ==== Sys2Proof/Config.lean ====
section
/-! DEFINITION. The free values: what the spec leaves open after an operation that nevertheless runs.
Each is an opaque constant: no proof can see its value, so every theorem holds for all of them.
What the spec names as an open PARAMETER of the block (physical widths, LUT depth, configuration) is
plain data in `State`, not here. -/

namespace Sys2Proof

/-- DESIGN CHOICE (safe, log entry 8). The sign of the NaN that a binary64 operation on these two operands
delivers: 43_value_scaler.md R209 says NaN weights "propagate by IEEE 754 rules", which leave it open. -/
opaque Config.nanSign : Binary64 → Binary64 → Bool

/-- DESIGN CHOICE (safe, log entry 8). The payload below the quiet bit of that NaN, open for the same reason. -/
opaque Config.nanPayload : Binary64 → Binary64 → BitVec 51

/-- DESIGN CHOICE (safe, log entry 13). The `start` of a `Value` event emitted at this sample index while
`phStart` is absent. 43_value_scaler.md R208 derives that `phStart` is always present there, so no run meets it. -/
opaque Config.absentSpanStart : Nat → Nat

end Sys2Proof
end

