-- ==== Sys2Proof/Machine/Binary64.lean ====
section
/-! DEFINITION. IEEE 754 binary64: multiplication, negation, conversion from a natural number and division by a power
of two, round to nearest, ties to even (00_scope.md R5, 43_value_scaler.md R209 and R210).
Every finite datum is an exact `sig × 2^exp`; an operation computes exactly and rounds once at the end. -/

namespace Sys2Proof.Machine

/-- The sign bit. -/
def F64.sign (a : Binary64) : Bool := a.getLsbD 63

/-- The biased exponent field, bits [62:52]. -/
def F64.expField (a : Binary64) : Nat := (a.extractLsb' 52 11).toNat

/-- The fraction field, bits [51:0]. -/
def F64.fracField (a : Binary64) : Nat := (a.extractLsb' 0 52).toNat

def F64.isNaN (a : Binary64) : Bool := F64.expField a == 2047 && F64.fracField a != 0

def F64.isInf (a : Binary64) : Bool := F64.expField a == 2047 && F64.fracField a == 0

def F64.isFinite (a : Binary64) : Bool := F64.expField a != 2047

/-- Either zero. -/
def F64.isZero (a : Binary64) : Bool := F64.expField a == 0 && F64.fracField a == 0

/-- The integer significand of a finite datum: subnormals have no hidden bit. -/
def F64.sig (a : Binary64) : Nat :=
  if F64.expField a = 0 then F64.fracField a else F64.fracField a + 2 ^ 52

/-- The exponent of the significand's unit. -/
def F64.exp (a : Binary64) : Int :=
  if F64.expField a = 0 then -1074 else (F64.expField a : Int) - 1075

/-- A datum of the given sign whose lower 63 bits are `m`. -/
def F64.signed (neg : Bool) (m : Nat) : Binary64 :=
  BitVec.ofBool neg ++ BitVec.ofNat 63 m

/-- The lower 63 bits of an infinity. -/
def F64.infBits : Nat := 2047 * 2 ^ 52

/-- `m / 2^sh` to the nearest integer, ties to even. -/
def F64.roundShift (m sh : Nat) : Nat :=
  let q := m / 2 ^ sh
  let r := m % 2 ^ sh
  if 2 * r > 2 ^ sh ∨ (2 * r = 2 ^ sh ∧ q % 2 = 1) then q + 1 else q

/-- The exponent of the unit in which `m × 2^e` (with `m ≠ 0`) is rounded: 53 significant bits,
but no finer than the subnormal unit `2^-1074`. -/
def F64.unitExp (m : Nat) (e : Int) : Int := max (e + (Nat.log2 m : Int) - 52) (-1074)

/-- `m × 2^e` counted in units of `2^q`, rounded to nearest even where `q` is the coarser. -/
def F64.inUnits (m : Nat) (e q : Int) : Nat :=
  if q ≤ e then m * 2 ^ (e - q).toNat else F64.roundShift m (q - e).toNat

/-- The datum nearest to `± m × 2^e`, ties to even, with overflow to infinity. A rounded significand of `2^53`
carries into the exponent field by the addition. -/
def F64.roundPack (neg : Bool) (m : Nat) (e : Int) : Binary64 :=
  if m = 0 then F64.signed neg 0
  else
    let q := F64.unitExp m e
    let bits := (q + 1074).toNat * 2 ^ 52 + F64.inUnits m e q
    F64.signed neg (min bits F64.infBits)

/-- The quiet NaN an operation on `a` and `b` delivers, with its sign and payload free
(43_value_scaler.md R209; DESIGN CHOICE, safe, log entry 8). -/
def F64.freeNaN (a b : Binary64) : Binary64 :=
  BitVec.ofBool (Config.nanSign a b) ++ (0xFFF#12 ++ Config.nanPayload a b)

/-- `a ⊗ b` (00_scope.md R5, 43_value_scaler.md R209). -/
def F64.mul (a b : Binary64) : Binary64 :=
  let neg := F64.sign a != F64.sign b
  if F64.isNaN a || F64.isNaN b then F64.freeNaN a b
  else if F64.isInf a || F64.isInf b then
    if F64.isZero a || F64.isZero b then F64.freeNaN a b
    else F64.signed neg F64.infBits
  else
    F64.roundPack neg (F64.sig a * F64.sig b) (F64.exp a + F64.exp b)

/-- `fneg(b)`: flips the sign bit, exact (00_scope.md R5). -/
def F64.fneg (b : Binary64) : Binary64 := b ^^^ 0x8000000000000000#64

/-- `f64(n)` (00_scope.md R5). -/
def F64.ofNat (n : Nat) : Binary64 := F64.roundPack false n 0

/-- `a / 2^n` in binary64 (43_value_scaler.md R210): one rounding of the exact quotient (log entry 10). -/
def F64.divPow2 (a : Binary64) (n : Nat) : Binary64 :=
  if F64.isNaN a then F64.freeNaN a (F64.ofNat (2 ^ n))
  else if F64.isInf a then a
  else F64.roundPack (F64.sign a) (F64.sig a) (F64.exp a - n)

end Sys2Proof.Machine
end

