-- ==== Sys2Proof/Machine/State.lean ====
section
/-! DEFINITION. The state of the block as plain data: ports, latched configuration, datapath registers, streams.
Also the closed types of what a step can answer besides a next state, and the state right after reset. -/

namespace Sys2Proof.Machine

/-- One two-line sample, the ports `neg` and `pos` (30_encoding.md R80). -/
structure Sample where
  neg : Bool
  pos : Bool
  deriving DecidableEq, Repr

/-- The value of the `phase` register (10_state.md R41). The reserved codes 100, 101, 110 of 30_encoding.md R96
are unreachable there and have no constructor here (log entry 23). -/
inductive Phase where
  /-- Bit-timing recovery, before the first rising edge. -/
  | trRise
  /-- Bit-timing recovery, before the falling edge after it. -/
  | trFall
  /-- The word synchronizer. -/
  | sync
  /-- The field extractor. -/
  | bit
  /-- The halted state of a fatal condition. -/
  | fault
  deriving DecidableEq, Repr

/-- DESIGN CHOICE (safe, log entry 11). A parameter name, the open type `NameT` of 00_scope.md R2:
a token that the block carries and never compares. -/
structure Name where
  token : Nat
  deriving DecidableEq, Repr

/-- One entry of the LUT (10_state.md R30): its identifier is 2 bits, with no wildcard (30_encoding.md R95). -/
structure LutEntry where
  name : Name
  address : BitVec 9
  identifier : BitVec 2
  firstBit : BitVec 5
  lastBit : BitVec 5
  signMode : BitVec 2
  lsbWeight : Binary64
  deriving DecidableEq, Repr

/-- A resolved entry: the static entry (10_state.md R26), whose identifier is the 3-bit key code of ST_IDENT with the
wildcard 4 (30_encoding.md R95), or a LUT entry with its identifier widened (DEDUCED, log entry 12). -/
structure Entry where
  name : Name
  address : BitVec 9
  identifier : BitVec 3
  firstBit : BitVec 5
  lastBit : BitVec 5
  signMode : BitVec 2
  lsbWeight : Binary64
  deriving DecidableEq, Repr

/-- The configuration bundle: CFG0 to CFG6 in the packing of 10_state.md R27, and the LUT (R31),
whose length is `LUT_DEPTH`. -/
structure Cfg where
  /-- CFG0 CTRL. -/
  ctrl : BitVec 8
  /-- CFG1 SR. -/
  sampleRate : Binary64
  /-- CFG2 ST_KEY. -/
  stKey : BitVec 12
  /-- CFG3 ST_WIN. -/
  stWin : BitVec 12
  /-- CFG4 ST_MSB. -/
  stMsb : Binary64
  /-- CFG5 ST_LSB. -/
  stLsb : Binary64
  /-- CFG6 ST_NAME. -/
  stName : Name
  lut : List LutEntry
  deriving DecidableEq, Repr

/-- The event records of 30_encoding.md R110, in the order of their kind codes 0 to 8. -/
inductive Event where
  | bitValue (start stop : Nat) (b : Bit)
  | label (start stop : Nat) (raw : BitVec 8) (disp : Nat)
  | sdi (start stop : Nat) (v : BitVec 2)
  | data (start stop : Nat) (v : BitVec 19)
  | ssm (start stop : Nat) (v : BitVec 2)
  | parity (start stop : Nat) (b : Bit)
  | bitOrdinal (start stop : Nat) (n : Nat)
  | value (start stop : Nat) (name : Name) (count : Int) (neg : Bool) (value : Binary64)
  | verdict (start stop : Nat) (ok : Bool)
  deriving DecidableEq, Repr

/-- What the host can do to the block (20_memory.md R70). -/
inductive HostInput where
  /-- Drive `rst`: true asserts it, false deasserts it (10_state.md R20). -/
  | rst (level : Bool)
  /-- Drive the configuration inputs (10_state.md R36, 20_memory.md R68). -/
  | config (c : Cfg)
  /-- Present one sample on the lines (20_memory.md R61). -/
  | sample (x : Sample)
  deriving DecidableEq, Repr

/-- The named checks of 10_state.md R34. -/
inductive ConfigCheck where
  | wfCtrl
  | wfRate
  | wfStKey
  | wfStWin
  | wfLut
  deriving DecidableEq, Repr

/-- Why the machine stops with a fault. The block's own faults (60_exceptions.md R260) are NOT here: they are
states of the block, so the step that meets one answers a next state with `phase = FAULT`. -/
inductive Fault where
  /-- Raised by `step` if the decoder refuses the dispatch word the block formed. Safe: 30_encoding.md R100 and R102
  say every word it can form is a row, and a law proves that no state raises this (log entry 21). -/
  | undecodableDispatch
  deriving DecidableEq, Repr

/-- Why the model gives no meaning: exactly the refusals of 00_scope.md R6, and an operation not modelled. -/
inductive Refusal where
  /-- Answered by an arm of `exec` whose instruction has no meaning in the model. Safe. No arm answers it now. -/
  | notModelled (mnemonic : String)
  /-- Answered at the deassertion of `rst` when the configuration presented fails the named check
  (10_state.md R34). Safe: the spec refuses the session. -/
  | illFormedConfig (check : ConfigCheck)
  /-- Answered when the configuration inputs change while `rst` is deasserted (20_memory.md R68).
  Safe: the spec refuses the session. -/
  | configChanged
  /-- Answered at the end of a step after which a register would exceed the physical width the model was given
  (00_scope.md R2 and R6, 70_reset_and_hazards.md R299). Safe: the spec refuses the run. -/
  | widthExceeded
  deriving DecidableEq, Repr

/-- The whole machine. -/
structure State where
  /-- Input port `rst` (10_state.md R36). -/
  rst : Bool
  /-- Input ports `neg`, `pos`: the sample presented last, `cur` inside a step (R36). -/
  line : Sample
  /-- Input port: the configuration bundle presented (R36). -/
  cfgIn : Cfg
  /-- Configuration registers and LUT, latched at the deassertion of `rst` (R20, R27, R31). -/
  cfg : Cfg
  /-- The static weight `W`, computed once at reset (R26). -/
  stWeight : Binary64
  /-- Open parameter IDX_WIDTH, absent when unbounded (00_scope.md R2). -/
  idxWidth : Option Nat
  /-- Open parameter CNT_WIDTH, absent when unbounded (00_scope.md R2). -/
  cntWidth : Option Nat
  /-- R41. -/
  phase : Phase
  /-- R42. -/
  k : BitIndex
  /-- R43. -/
  labelRaw : BitVec 8
  /-- R43. -/
  sdi : BitVec 2
  /-- R43. -/
  data : BitVec 19
  /-- R43. -/
  ssm : BitVec 2
  /-- R43. -/
  par : Bit
  /-- R44: absent before the first sample of the session. -/
  prev : Option Sample
  /-- R45. -/
  idx : Nat
  /-- R46. -/
  sR : Nat
  /-- R46: `halfBitWidth`. -/
  h : Nat
  /-- R47. -/
  runLen : Nat
  /-- R48. -/
  eLast : Nat
  /-- R48. -/
  wordStart : Nat
  /-- R48. -/
  fieldStart : Nat
  /-- R49: the entry resolved for the current word. -/
  sel : Option Entry
  /-- R49. -/
  phStart : Option Nat
  /-- R49. -/
  phStop : Option Nat
  /-- R50. -/
  faultCode : BitVec 2
  /-- Output port `events`: the events of the last step (R37). -/
  out : List Event
  /-- The event stream of this session (20_memory.md R60). -/
  stream : List Event
  /-- The events of the sessions before this one (70_reset_and_hazards.md R292). -/
  earlier : List Event
  /-- What the host does next, in order (20_memory.md R70); empty when it has stopped. -/
  host : List HostInput
  deriving DecidableEq, Repr

/-- DESIGN CHOICE (unsafe, log entry 4). The configuration `State.reset` is latched from: `CFG` with nothing written,
so SR_VALID = 1 and every other field 0 (30_encoding.md R116), but SAMPLE_RATE = 1.0, since R34 refuses 0. -/
def Cfg.bare : Cfg where
  ctrl := 0x01#8
  sampleRate := 0x3FF0000000000000#64
  stKey := 0#12
  stWin := 0#12
  stMsb := 0#64
  stLsb := 0#64
  stName := ⟨0⟩
  lut := []

/-- The machine right after reset: the values of 10_state.md R51 for a session latched from `Cfg.bare`,
whose reset checks (60_exceptions.md R261) pass. `Laws` proves it is what the reset sequence leaves. -/
def State.reset : State where
  rst := false
  line := ⟨false, false⟩
  cfgIn := Cfg.bare
  cfg := Cfg.bare
  stWeight := 0#64
  idxWidth := none
  cntWidth := none
  phase := .trRise
  k := 0#5
  labelRaw := 0#8
  sdi := 0#2
  data := 0#19
  ssm := 0#2
  par := 0#1
  prev := none
  idx := 0
  sR := 0
  h := 0
  runLen := 0
  eLast := 0
  wordStart := 0
  fieldStart := 0
  sel := none
  phStart := none
  phStop := none
  faultCode := 0#2
  out := []
  stream := []
  earlier := []
  host := []

end Sys2Proof.Machine
end

