-- ==== Sys2Proof/Machine/Operands.lean ====
section
/-! DEFINITION. What the operations read: the configuration fields, the operands of a bit, the label display form,
the value window, the static entry and the LUT. Nothing here writes. -/

namespace Sys2Proof.Machine

/-! ## Configuration fields (10_state.md R27) -/

/-- CFG0[0] SR_VALID. -/
def Cfg.srValid (c : Cfg) : Bool := c.ctrl.getLsbD 0

/-- CFG0[1] DEC_EN. -/
def Cfg.decEn (c : Cfg) : Bool := c.ctrl.getLsbD 1

/-- CFG0[2] MODE: false Static, true Table. -/
def Cfg.mode (c : Cfg) : Bool := c.ctrl.getLsbD 2

/-- CFG0[3] TBL_PRESENT. -/
def Cfg.tblPresent (c : Cfg) : Bool := c.ctrl.getLsbD 3

/-- CFG0[4] ST_WSEL: false LSB, true MSB. -/
def Cfg.stWsel (c : Cfg) : Bool := c.ctrl.getLsbD 4

/-- CFG0[7:5], reserved. -/
def Cfg.ctrlReserved (c : Cfg) : BitVec 3 := c.ctrl.extractLsb' 5 3

/-- CFG2[8:0] ST_ADDR, in display form (R25). -/
def Cfg.stAddr (c : Cfg) : BitVec 9 := c.stKey.extractLsb' 0 9

/-- CFG2[11:9] ST_IDENT, 4 being the wildcard (30_encoding.md R95). -/
def Cfg.stIdent (c : Cfg) : BitVec 3 := c.stKey.extractLsb' 9 3

/-- CFG3[4:0] ST_FIRST. -/
def Cfg.stFirst (c : Cfg) : BitVec 5 := c.stWin.extractLsb' 0 5

/-- CFG3[9:5] ST_LAST. -/
def Cfg.stLast (c : Cfg) : BitVec 5 := c.stWin.extractLsb' 5 5

/-- CFG3[11:10] ST_SMODE. -/
def Cfg.stSmode (c : Cfg) : BitVec 2 := c.stWin.extractLsb' 10 2

/-- DEC_EN = 1 and MODE = 0: the session decodes values with the static entry (R26). -/
def Cfg.staticMode (c : Cfg) : Bool := c.decEn && !c.mode

/-- DEC_EN = 1 and MODE = 1: the session decodes values with the table (R23). -/
def Cfg.tableMode (c : Cfg) : Bool := c.decEn && c.mode

/-! ## The label display form (30_encoding.md R90, R91) -/

/-- `labelDisp`: three groups of the label's bits as decimal digits (R90). -/
def disp (raw : BitVec 8) : Nat :=
  (raw.extractLsb' 0 3).toNat + 10 * (raw.extractLsb' 3 3).toNat + 100 * (raw.extractLsb' 6 2).toNat

/-- The inverse of the display form (R91). -/
def undisp (d : Nat) : Nat := d % 10 + 8 * (d / 10 % 10) + 64 * (d / 100)

/-- The display values: digits `d2 ≤ 3`, `d1 ≤ 7`, `d0 ≤ 7` (R91). -/
def isDisplay (d : Nat) : Bool := decide (d / 100 ≤ 3 ∧ d / 10 % 10 ≤ 7 ∧ d % 10 ≤ 7)

/-! ## The operands of a bit -/

/-- `bw = 2 × h` (10_state.md R46). -/
def State.bw (s : State) : Nat := 2 * s.h

/-- `b`: the value of a bit acquired at the current sample is `cur.pos` (42_field_extractor.md R164). -/
def State.bitNow (s : State) : Bit := BitVec.ofBool s.line.pos

/-- `e + h`, where the span of a bit acquired at the current sample ends (42_field_extractor.md R167). -/
def State.spanEnd (s : State) : Nat := s.idx + s.h

/-- The first bit of a field: `k ∈ {0, 8, 10, 29, 31}` (30_encoding.md R85). -/
def isFieldStart (k : BitIndex) : Bool :=
  k.toNat == 0 || k.toNat == 8 || k.toNat == 10 || k.toNat == 29 || k.toNat == 31

/-- `10 ≤ k ≤ 28`: the bits of the data field (30_encoding.md R85). -/
def isDataBit (k : BitIndex) : Bool := decide (10 ≤ k.toNat ∧ k.toNat ≤ 28)

/-- The word value `W` of the five fields (30_encoding.md R88). -/
def wordValue (labelRaw : BitVec 8) (sdi : BitVec 2) (data : BitVec 19) (ssm : BitVec 2) (par : Bit) : BitVec 32 :=
  par ++ (ssm ++ (data ++ (sdi ++ labelRaw)))

/-! ## The value window (43_value_scaler.md R200 to R202, R207) -/

/-- `f`, the first data bit number of the window. -/
def Entry.f (e : Entry) : Nat := e.firstBit.toNat

/-- `l`, the last data bit number of the window. -/
def Entry.l (e : Entry) : Nat := e.lastBit.toNat

/-- `width = l - f + 1` (R201). -/
def Entry.width (e : Entry) : Nat := e.l - e.f + 1

/-- `mask = (1 << (width + 1)) - 1` (R201). -/
def Entry.mask (e : Entry) : Nat := 2 ^ (e.width + 1) - 1

/-- `field = (data >> (f - 11)) & mask` (R201). -/
def Entry.field (e : Entry) (data : BitVec 19) : Nat := (data.toNat >>> (e.f - 11)) &&& e.mask

/-- `signBit = field >> width`, 0 or 1 (R202). -/
def Entry.signBit (e : Entry) (data : BitVec 19) : Nat := e.field data >>> e.width

/-- `stopJ`: the data-relative index whose leading edge ends the value span (R207). -/
def Entry.stopJ (e : Entry) : Nat :=
  if e.signMode = 0#2 then e.l - 11 + 1 else e.l - 11 + 2

/-! ## The static entry and the LUT -/

/-- The weight rule R210 derives for the static entry: `msbValue / 2^(lastBit - firstBit)`, or `lsbValue` (R26). -/
def Cfg.derivedWeight (c : Cfg) : Binary64 :=
  if c.stWsel then F64.divPow2 c.stMsb (c.stLast.toNat - c.stFirst.toNat) else c.stLsb

/-- The static weight computed at reset (10_state.md R26). Outside static mode there is no static entry
and nothing reads it: DESIGN CHOICE +0.0 (log entry 19). -/
def Cfg.staticWeight (c : Cfg) : Binary64 :=
  if c.staticMode then c.derivedWeight else 0#64

/-- The static entry of static mode (10_state.md R26). -/
def State.staticEntry (s : State) : Entry where
  name := s.cfg.stName
  address := s.cfg.stAddr
  identifier := s.cfg.stIdent
  firstBit := s.cfg.stFirst
  lastBit := s.cfg.stLast
  signMode := s.cfg.stSmode
  lsbWeight := s.stWeight

/-- A LUT entry as the resolver returns it: every field as it stands (10_state.md R30, log entry 12). -/
def LutEntry.entry (r : LutEntry) : Entry where
  name := r.name
  address := r.address
  identifier := r.identifier.setWidth 3
  firstBit := r.firstBit
  lastBit := r.lastBit
  signMode := r.signMode
  lsbWeight := r.lsbWeight

/-- `LutRead(i)` (10_state.md R31). -/
def State.lutRead (s : State) (i : Nat) : Option LutEntry := s.cfg.lut[i]?

end Sys2Proof.Machine
end

