-- ==== Sys2Proof/Machine/ConfigCheck.lean ====
section
/-! DEFINITION. Configuration well-formedness, the five named checks of 10_state.md R34. -/

namespace Sys2Proof.Machine

/-- `11 ≤ first ≤ last ≤ 29` (R34). -/
def windowOk (first last : BitVec 5) : Bool :=
  decide (11 ≤ first.toNat ∧ first.toNat ≤ last.toNat ∧ last.toNat ≤ 29)

/-- A finite binary64 that is greater than zero (R34, WF_RATE). -/
def positiveFinite (a : Binary64) : Bool := F64.isFinite a && !F64.isZero a && !F64.sign a

/-- WF_CTRL. -/
def Cfg.wfCtrl (c : Cfg) : Bool := c.ctrlReserved == 0#3

/-- WF_RATE. -/
def Cfg.wfRate (c : Cfg) : Bool := !c.srValid || positiveFinite c.sampleRate

/-- WF_ST_KEY. -/
def Cfg.wfStKey (c : Cfg) : Bool :=
  !c.staticMode || (isDisplay c.stAddr.toNat && decide (c.stIdent.toNat ≤ 4))

/-- WF_ST_WIN. -/
def Cfg.wfStWin (c : Cfg) : Bool :=
  !c.staticMode || (windowOk c.stFirst c.stLast && decide (c.stSmode.toNat ≤ 2))

/-- One entry of WF_LUT. The identifier's 2 bits (10_state.md R30) already keep it at most 3. -/
def LutEntry.wf (e : LutEntry) : Bool :=
  isDisplay e.address.toNat && decide (e.identifier.toNat ≤ 3) && windowOk e.firstBit e.lastBit
    && decide (e.signMode.toNat ≤ 2)

/-- WF_LUT. -/
def Cfg.wfLut (c : Cfg) : Bool := !(c.tableMode && c.tblPresent) || c.lut.all LutEntry.wf

/-- The first check of R34, in the order of its table, that the configuration fails. -/
def Cfg.check (c : Cfg) : Option ConfigCheck :=
  if !c.wfCtrl then some .wfCtrl
  else if !c.wfRate then some .wfRate
  else if !c.wfStKey then some .wfStKey
  else if !c.wfStWin then some .wfStWin
  else if !c.wfLut then some .wfLut
  else none

end Sys2Proof.Machine
end

