-- ==== Sys2Proof/Syntax.lean ====
section
/-! DEFINITION. The operations of the block: one constructor per row of spec/opcode_table.json, in its order. -/

namespace Sys2Proof

/-- The 27 operations (30_encoding.md R101 and R103). The dispatch rows perform a whole step; the field operations
and functional units are the procedures those steps run. An operand `k` is the index of the bit being acquired,
the `K` field of the dispatch word, for the rows that serve more than one `k`. -/
inductive Instr where
  /-- TR_WAIT, 40_bit_timing.md R124. -/
  | trWait
  /-- TR_EDGE, 40_bit_timing.md R125. -/
  | trEdge
  /-- TR_HOLD, 40_bit_timing.md R127. -/
  | trHold
  /-- TR_MEASURE, 40_bit_timing.md R126. -/
  | trMeasure
  /-- SYNC_LOW, 41_word_sync.md R142. -/
  | syncLow
  /-- SYNC_BREAK, 41_word_sync.md R143. -/
  | syncBreak
  /-- SYNC_SHORT, 41_word_sync.md R144. -/
  | syncShort
  /-- SYNC_FIRE, 41_word_sync.md R145. -/
  | syncFire
  /-- BIT_WAIT, 42_field_extractor.md R161. -/
  | bitWait
  /-- BIT_EDGE, 42_field_extractor.md R162. -/
  | bitEdge (k : BitIndex)
  /-- BIT_TIMEOUT, 42_field_extractor.md R163. -/
  | bitTimeout (k : BitIndex)
  /-- FAULT_HOLD, 60_exceptions.md R263. -/
  | faultHold
  /-- ACQ_LABEL, 42_field_extractor.md R170, `k` in 0..6. -/
  | acqLabel (k : BitIndex)
  /-- ACQ_LABEL_LAST, 42_field_extractor.md R171. -/
  | acqLabelLast
  /-- ACQ_SDI, 42_field_extractor.md R172. -/
  | acqSdi
  /-- ACQ_SDI_LAST, 42_field_extractor.md R173. -/
  | acqSdiLast
  /-- ACQ_DATA, 42_field_extractor.md R174, `k` in 10..27. -/
  | acqData (k : BitIndex)
  /-- ACQ_DATA_LAST, 42_field_extractor.md R175. -/
  | acqDataLast
  /-- ACQ_SSM, 42_field_extractor.md R176. -/
  | acqSsm
  /-- ACQ_SSM_LAST, 42_field_extractor.md R177. -/
  | acqSsmLast
  /-- ACQ_PARITY, 42_field_extractor.md R178. -/
  | acqParity
  /-- RESOLVE_STATIC, 45_resolver.md R241. -/
  | resolveStatic
  /-- RESOLVE_TABLE, 45_resolver.md R242. -/
  | resolveTable
  /-- SCALE_UNSIGNED, 43_value_scaler.md R204. -/
  | scaleUnsigned
  /-- SCALE_SIGNED, 43_value_scaler.md R206. -/
  | scaleSigned
  /-- SCALE_TWOS, 43_value_scaler.md R205. -/
  | scaleTwos
  /-- PARITY_CHECK, 44_parity.md R230. -/
  | parityCheck
  deriving DecidableEq, Repr

end Sys2Proof
end

