-- ==== Sys2Proof/WellFormed.lean ====
section
/-! DEFINITION. Which instruction terms are rows of the table: the ranges of the operand `k`.
(The well-formedness of a CONFIGURATION, 10_state.md R34, is `Sys2Proof.Machine.Cfg.check`.) -/

namespace Sys2Proof

/-- The operand ranges of 30_encoding.md R103: ACQ_LABEL serves `k` 0 to 6, ACQ_DATA 10 to 27.
The dispatch rows take any `K` ("x" in R101). -/
def Instr.wf : Instr → Bool
  | .acqLabel k => decide (k.toNat ≤ 6)
  | .acqData k => decide (10 ≤ k.toNat ∧ k.toNat ≤ 27)
  | .trWait | .trEdge | .trHold | .trMeasure => true
  | .syncLow | .syncBreak | .syncShort | .syncFire => true
  | .bitWait | .bitEdge _ | .bitTimeout _ | .faultHold => true
  | .acqLabelLast | .acqSdi | .acqSdiLast | .acqDataLast => true
  | .acqSsm | .acqSsmLast | .acqParity => true
  | .resolveStatic | .resolveTable => true
  | .scaleUnsigned | .scaleSigned | .scaleTwos => true
  | .parityCheck => true

end Sys2Proof
end

