-- ==== Sys2Proof/Decode.lean ====
section
/-! DEFINITION. The selectors of 30_encoding.md section 6 and their decoder, then the encoder.
The block fetches no words from a memory. It forms a dispatch word at every step (R100), and the step selects a
field operation by `k` and a functional unit by a configuration or entry code (R103). Each is a selector here. -/

namespace Sys2Proof

/-- The four formats of spec/opcode_table.json. `parityUnit` is the table's second use of the format acq_k:
PARITY_CHECK has no selector of its own, it is "always invoked by ACQ_PARITY". -/
inductive Selector where
  /-- Format dispatch16: the dispatch word of R100. -/
  | dispatch (w : DispatchWord)
  /-- Format acq_k: the index of the bit being acquired. -/
  | acq (k : BitIndex)
  /-- Format cfg_ctrl: CTRL[2:0], that is MODE, DEC_EN, SR_VALID. -/
  | ctrl (c : BitVec 3)
  /-- Format sign_mode: the sign-mode code of the resolved entry (R94). -/
  | signMode (m : BitVec 2)
  /-- The functional unit PARITY_CHECK, keyed by the same `k` as ACQ_PARITY. -/
  | parityUnit (k : BitIndex)
  deriving DecidableEq, Repr

/-- Why a selector selects nothing. -/
inductive DecodeError where
  /-- Bits [2:0] of a dispatch word are not "000" (R100). -/
  | padNotZero
  /-- A reserved phase code 100, 101 or 110 (R96). -/
  | reservedPhase
  /-- DEC_EN is 0: no resolver is selected (R103, 10_state.md R22). -/
  | valueDecodingOff
  /-- Sign-mode code 3 is reserved (R94). -/
  | reservedSignMode
  /-- The parity unit is invoked at `k = 31` only (R103). -/
  | notEndOfWord
  deriving DecidableEq, Repr

/-- `PH`, bits [15:13] of a dispatch word (R100). -/
def DispatchWord.ph (w : DispatchWord) : BitVec 3 := w.extractLsb' 13 3

/-- `K`, bits [12:8] of a dispatch word (R100). -/
def DispatchWord.k (w : DispatchWord) : BitIndex := w.extractLsb' 8 5

/-- The dispatch table, row by row (30_encoding.md R101). Bits 7, 6, 5, 4, 3 are RISE, FALL, LOW, GAPOK, TMO. -/
def decodeDispatch (w : DispatchWord) : Except DecodeError Instr :=
  if w.extractLsb' 0 3 ≠ 0#3 then .error .padNotZero
  else if w.ph = 0b000#3 then
    if w.getLsbD 7 then .ok .trEdge else .ok .trWait
  else if w.ph = 0b001#3 then
    if w.getLsbD 6 then .ok .trMeasure else .ok .trHold
  else if w.ph = 0b010#3 then
    if w.getLsbD 7 then
      if w.getLsbD 4 then .ok .syncFire else .ok .syncShort
    else
      if w.getLsbD 5 then .ok .syncLow else .ok .syncBreak
  else if w.ph = 0b011#3 then
    if w.getLsbD 7 then .ok (.bitEdge w.k)
    else if w.getLsbD 3 then .ok (.bitTimeout w.k) else .ok .bitWait
  else if w.ph = 0b111#3 then .ok .faultHold
  else .error .reservedPhase

/-- The field operation of bit `k` (30_encoding.md R103): every `k` has one. -/
def decodeAcq (k : BitIndex) : Instr :=
  if k.toNat ≤ 6 then .acqLabel k
  else if k.toNat = 7 then .acqLabelLast
  else if k.toNat = 8 then .acqSdi
  else if k.toNat = 9 then .acqSdiLast
  else if k.toNat ≤ 27 then .acqData k
  else if k.toNat = 28 then .acqDataLast
  else if k.toNat = 29 then .acqSsm
  else if k.toNat = 30 then .acqSsmLast
  else .acqParity

/-- The resolver unit selected by MODE and DEC_EN, CTRL[2:1] (30_encoding.md R103). -/
def decodeCtrl (c : BitVec 3) : Except DecodeError Instr :=
  if c.getLsbD 1 then
    if c.getLsbD 2 then .ok .resolveTable else .ok .resolveStatic
  else .error .valueDecodingOff

/-- The scaler unit selected by the sign-mode code of `sel` (30_encoding.md R94, R103). -/
def decodeSignMode (m : BitVec 2) : Except DecodeError Instr :=
  if m = 0#2 then .ok .scaleUnsigned
  else if m = 1#2 then .ok .scaleSigned
  else if m = 2#2 then .ok .scaleTwos
  else .error .reservedSignMode

/-- PARITY_CHECK is run at the end of a word, `k = 31` (30_encoding.md R103). -/
def decodeParityUnit (k : BitIndex) : Except DecodeError Instr :=
  if k = 31#5 then .ok .parityCheck else .error .notEndOfWord

/-- The decoder, total on every selector. -/
def decode : Selector → Except DecodeError Instr
  | .dispatch w => decodeDispatch w
  | .acq k => .ok (decodeAcq k)
  | .ctrl c => decodeCtrl c
  | .signMode m => decodeSignMode m
  | .parityUnit k => decodeParityUnit k

/-- A dispatch word of a `BIT` row: the row's match with `K` filled in (30_encoding.md R100). -/
def bitRowWord (base : DispatchWord) (k : BitIndex) : DispatchWord :=
  base ||| (k.setWidth 16 <<< 8)

/-- The encoder, from the same tables (30_encoding.md R101, R103): don't-care bits are 0. -/
def encode : Instr → Selector
  | .trWait => .dispatch 0x0000#16
  | .trEdge => .dispatch 0x0080#16
  | .trHold => .dispatch 0x2000#16
  | .trMeasure => .dispatch 0x2040#16
  | .syncLow => .dispatch 0x4020#16
  | .syncBreak => .dispatch 0x4000#16
  | .syncShort => .dispatch 0x4080#16
  | .syncFire => .dispatch 0x4090#16
  | .bitWait => .dispatch 0x6000#16
  | .bitEdge k => .dispatch (bitRowWord 0x6080#16 k)
  | .bitTimeout k => .dispatch (bitRowWord 0x6008#16 k)
  | .faultHold => .dispatch 0xE000#16
  | .acqLabel k => .acq k
  | .acqLabelLast => .acq 0b00111#5
  | .acqSdi => .acq 0b01000#5
  | .acqSdiLast => .acq 0b01001#5
  | .acqData k => .acq k
  | .acqDataLast => .acq 0b11100#5
  | .acqSsm => .acq 0b11101#5
  | .acqSsmLast => .acq 0b11110#5
  | .acqParity => .acq 0b11111#5
  | .resolveStatic => .ctrl 0b010#3
  | .resolveTable => .ctrl 0b110#3
  | .scaleUnsigned => .signMode 0b00#2
  | .scaleSigned => .signMode 0b01#2
  | .scaleTwos => .signMode 0b10#2
  | .parityCheck => .parityUnit 0b11111#5

/-- DESIGN CHOICE (safe, log entry 17). The selector a bare number of the opcode table stands for. The table's
formats acq_k (5 bits), cfg_ctrl (3 bits) and sign_mode (2 bits) overlap as bare numbers, so a byte is read as the
first row of the table whose reader-made "fixed" bits are exactly the byte, and otherwise as a bit index. -/
def tableSelector (nbits w : Nat) : Option Selector :=
  if nbits = 16 then
    if w < 65536 then some (.dispatch (BitVec.ofNat 16 w)) else none
  else if nbits = 8 then
    if w = 0 ∨ w = 1 then some (.signMode (BitVec.ofNat 2 w))
    else if w = 2 ∨ w = 6 then some (.ctrl (BitVec.ofNat 3 w))
    else if w < 32 then some (.acq (BitVec.ofNat 5 w))
    else none
  else if nbits = 5 then
    if w < 32 then some (.acq (BitVec.ofNat 5 w)) else none
  else if nbits = 3 then
    if w < 8 then some (.ctrl (BitVec.ofNat 3 w)) else none
  else if nbits = 2 then
    if w < 4 then some (.signMode (BitVec.ofNat 2 w)) else none
  else none

/-- The instruction the decoder reads from a number of the opcode table. -/
def decodeTableWord (nbits w : Nat) : Option Instr :=
  match tableSelector nbits w with
  | none => none
  | some sel =>
    match decode sel with
    | .ok i => some i
    | .error _ => none

end Sys2Proof
end

