-- ==== Sys2Proof/Machine/Flags.lean ====
section
/-! DEFINITION. The combinational conditions of one step (10_state.md R50), the dispatch word they form, and the
population count of the parity verdict. The block has no flag register. -/

namespace Sys2Proof.Machine

/-- `RISE`: a rising edge on either line (40_bit_timing.md R120). -/
def State.rise (s : State) : Bool :=
  match s.prev with
  | none => false
  | some p => (!p.neg && s.line.neg) || (!p.pos && s.line.pos)

/-- `FALL`: a falling edge on either line (40_bit_timing.md R120). -/
def State.fall (s : State) : Bool :=
  match s.prev with
  | none => false
  | some p => (p.neg && !s.line.neg) || (p.pos && !s.line.pos)

/-- `LOW`: both lines low (40_bit_timing.md R120). -/
def State.low (s : State) : Bool := !s.line.neg && !s.line.pos

/-- `GAPOK`: the both-low run is at least `3 × bw` (41_word_sync.md R141). -/
def State.gapOk (s : State) : Bool := decide (3 * s.bw ≤ s.runLen)

/-- `TMO`: the current sample is the bit-wait bound `eLast + bw + h` (42_field_extractor.md R160). -/
def State.tmo (s : State) : Bool := decide (s.idx = s.eLast + s.bw + s.h)

/-- The phase codes (30_encoding.md R96). -/
def Phase.code : Phase → BitVec 3
  | .trRise => 0b000#3
  | .trFall => 0b001#3
  | .sync => 0b010#3
  | .bit => 0b011#3
  | .fault => 0b111#3

/-- The dispatch word of the step at the sample on the lines (30_encoding.md R100). -/
def State.dispatchWord (s : State) : DispatchWord :=
  s.phase.code ++ (s.k ++ (BitVec.ofBool s.rise ++ (BitVec.ofBool s.fall ++ (BitVec.ofBool s.low ++
    (BitVec.ofBool s.gapOk ++ (BitVec.ofBool s.tmo ++ 0b000#3))))))

/-- The number of 1 bits (00_scope.md R5). -/
def popcount {n : Nat} (v : BitVec n) : Nat := (List.range n).countP (fun i => v.getLsbD i)

/-- `ok`: odd parity over the five fields as accumulated (44_parity.md R230). -/
def State.parityOk (s : State) : Bool :=
  (popcount s.labelRaw + popcount s.sdi + popcount s.data + popcount s.ssm + s.par.toNat) % 2 == 1

end Sys2Proof.Machine
end

