-- ==== Sys2Proof/Machine/Ops.lean ====
section
/-! DEFINITION. The named procedures the operations share: emitting an event, the end of a step, ENTER_SYNC,
NEXT_BIT, raising a fault, the reset sequence and the delivery of a step's events. -/

namespace Sys2Proof.Machine

/-- What an operation answers. -/
abbrev Result := Host.Outcome State Fault Refusal

/-- `emit E`: append an event to this step's list (00_scope.md R5). -/
def emit (ev : Event) (s : State) : State := { s with out := s.out ++ [ev] }

/-- A value fits the physical width the model was given, if it was given one (00_scope.md R2). -/
def fitsWidth (width : Option Nat) (v : Nat) : Bool :=
  match width with
  | none => true
  | some n => decide (v < 2 ^ n)

/-- Every position register fits IDX_WIDTH, and `h` and `runLen` fit CNT_WIDTH (00_scope.md R2). -/
def State.fits (s : State) : Bool :=
  fitsWidth s.idxWidth s.idx && fitsWidth s.idxWidth s.sR && fitsWidth s.idxWidth s.eLast
    && fitsWidth s.idxWidth s.wordStart && fitsWidth s.idxWidth s.fieldStart
    && fitsWidth s.idxWidth (s.phStart.getD 0) && fitsWidth s.idxWidth (s.phStop.getD 0)
    && fitsWidth s.cntWidth s.h && fitsWidth s.cntWidth s.runLen

/-- `prev <- cur; idx <- idx + 1`, how every step outside FAULT ends (40_bit_timing.md R121). -/
def consumeSample (s : State) : State := { s with prev := some s.line, idx := s.idx + 1 }

/-- The end of a step outside FAULT: R121, then the refusal of a register past its physical width
(00_scope.md R2, R6, 70_reset_and_hazards.md R299). -/
def endStep (s : State) : Result :=
  if (consumeSample s).fits then .next (consumeSample s) else .refused .widthExceeded

/-- `ENTER_SYNC(cur)`: arm the gap detector at the current sample (41_word_sync.md R140). -/
def enterSync (s : State) : State := { s with phase := .sync, runLen := if s.low then 1 else 0 }

/-- `NEXT_BIT(e)` at the end of the operation that acquired bit `k` (42_field_extractor.md R168, log entry 15). -/
def nextBit (k : BitIndex) (s : State) : State := { s with k := k + 1#5, eLast := s.idx, phase := .bit }

/-! ## Faults and reset -/

/-- `raise Fault(code)` (60_exceptions.md R262): the one way a fault is taken. -/
def raiseFault (code : BitVec 2) (s : State) : State := { s with faultCode := code, phase := .fault }

/-- The output `fault` (10_state.md R37, 60_exceptions.md R260). -/
def State.faultOut (s : State) : Bool := s.faultCode != 0#2

/-- The reset checks (60_exceptions.md R261), on a state whose registers hold their reset values. -/
def resetChecks (s : State) : State :=
  if !s.cfg.srValid then raiseFault 1#2 s
  else if s.cfg.tableMode && !s.cfg.tblPresent then raiseFault 2#2 s
  else { s with phase := .trRise }

/-- Every register at its reset value (10_state.md R51, `State.reset`) with the configuration latched and the static weight
computed (70_reset_and_hazards.md R290 steps 1, 3, 4). The events already emitted stand (R292). -/
def resetRegisters (c : Cfg) (s : State) : State :=
  { State.reset with
    rst := s.rst
    line := s.line
    cfgIn := s.cfgIn
    cfg := c
    stWeight := c.staticWeight
    idxWidth := s.idxWidth
    cntWidth := s.cntWidth
    earlier := s.earlier ++ s.stream
    host := s.host }

/-- The reset sequence at the deassertion of `rst` (70_reset_and_hazards.md R290): latch the configuration inputs,
refuse an ill-formed configuration, set the registers, compute the static weight, run the reset checks.
The return from a fault is this and nothing else (60_exceptions.md R273). -/
def startSession (s : State) : Result :=
  match s.cfgIn.check with
  | some failed => .refused (.illFormedConfig failed)
  | none => .next (resetChecks (resetRegisters s.cfgIn s))

/-! ## The event port -/

/-- The events of a step are delivered together, in emission order, when the step ends (20_memory.md R65, R67). -/
def deliver (r : Result) : Result :=
  match r with
  | .next t => .next { t with stream := t.stream ++ t.out }
  | .fault e => .fault e
  | .refused e => .refused e

end Sys2Proof.Machine
end

