-- ==== Sys2Proof/Machine/BitTiming.lean ====
section
/-! DEFINITION. Bit-timing recovery: TR_WAIT, TR_EDGE, TR_HOLD, TR_MEASURE (40_bit_timing.md R124 to R127). -/

namespace Sys2Proof.Machine

/-- TR_WAIT: no register changes but R121's (R124). -/
def execTrWait (s : State) : Result := endStep s

/-- TR_EDGE: `sR <- s; phase <- TR_FALL` (R125). -/
def execTrEdge (s : State) : Result := endStep { s with sR := s.idx, phase := .trFall }

/-- TR_HOLD: no register changes but R121's (R127). -/
def execTrHold (s : State) : Result := endStep s

/-- TR_MEASURE: `h <- s - sR`, then ENTER_SYNC (R126). -/
def execTrMeasure (s : State) : Result := endStep (enterSync { s with h := s.idx - s.sR })

end Sys2Proof.Machine
end

