-- ==== Sys2Proof/Machine/FaultHold.lean ====
section
/-! DEFINITION. FAULT_HOLD, the step of a faulted session (60_exceptions.md R263). -/

namespace Sys2Proof.Machine

/-- FAULT_HOLD: no register changes, not even `prev` and `idx`; no event (R263, 70_reset_and_hazards.md R303). -/
def execFaultHold (s : State) : Result := .next s

end Sys2Proof.Machine
end

