-- ==== Sys2Proof/Machine/Parity.lean ====
section
/-! DEFINITION. The odd-parity validator (44_parity.md R230). -/

namespace Sys2Proof.Machine

/-- `PARITY_CHECK(e)`: the verdict spans the word and is an event, never a fault (R230, 60_exceptions.md R265). -/
def parityVerdict (s : State) : State := emit (.verdict s.wordStart s.spanEnd s.parityOk) s

/-- PARITY_CHECK as a functional unit. -/
def execParityCheck (s : State) : Result := .next (parityVerdict s)

end Sys2Proof.Machine
end

