-- ==== Sys2Proof/Machine/Resolver.lean ====
section
/-! DEFINITION. The parameter resolver: RESOLVE_STATIC and RESOLVE_TABLE (45_resolver.md R240 to R242).
The units return an entry or absent; the caller, ACQ_SDI_LAST, puts it in `sel` (42_field_extractor.md R173).
Run on their own they take the key `(disp(labelRaw), sdi)` and deliver into `sel` (DESIGN CHOICE, log entry 1). -/

namespace Sys2Proof.Machine

/-- RESOLVE_STATIC on a key: the wildcard `ST_IDENT = 4` matches every SDI (R241). -/
def resolveStaticKey (addr : Nat) (ident : BitVec 2) (s : State) : Option Entry :=
  if addr = s.cfg.stAddr.toNat ∧ (s.cfg.stIdent = 4#3 ∨ s.cfg.stIdent.toNat = ident.toNat) then some s.staticEntry
  else none

/-- A LUT entry has the key (R242): both fields equal, no wildcard. -/
def LutEntry.hasKey (addr : Nat) (ident : BitVec 2) (e : LutEntry) : Bool :=
  decide (e.address.toNat = addr ∧ e.identifier = ident)

/-- RESOLVE_TABLE on a key: the first entry in LUT order (R242). -/
def resolveTableKey (addr : Nat) (ident : BitVec 2) (s : State) : Option Entry :=
  (s.cfg.lut.find? (LutEntry.hasKey addr ident)).map LutEntry.entry

/-- RESOLVE_STATIC for the current word. -/
def resolveStatic (s : State) : State := { s with sel := resolveStaticKey (disp s.labelRaw) s.sdi s }

/-- RESOLVE_TABLE for the current word. -/
def resolveTable (s : State) : State := { s with sel := resolveTableKey (disp s.labelRaw) s.sdi s }

/-- `if DEC_EN = 1 then sel <- RESOLVE(disp(labelRaw), sdi)`, by MODE (R240, 42_field_extractor.md R173). -/
def resolveWord (s : State) : State :=
  if s.cfg.decEn then
    if s.cfg.mode then resolveTable s else resolveStatic s
  else s

/-- RESOLVE_STATIC as a functional unit. -/
def execResolveStatic (s : State) : Result := .next (resolveStatic s)

/-- RESOLVE_TABLE as a functional unit. -/
def execResolveTable (s : State) : Result := .next (resolveTable s)

end Sys2Proof.Machine
end

