-- ==== Sys2Proof/Machine/ValueScaler.lean ====
section
/-! DEFINITION. The value scaler: CAPTURE_PH and the three SCALE units (43_value_scaler.md R200 to R208).
An exact integer stage gives the sign and the magnitude, one binary64 product gives the value. -/

namespace Sys2Proof.Machine

/-- The result of the integer stage, `count = (neg ? -mag : mag)` (R203). -/
structure Scaled where
  neg : Bool
  mag : Nat
  deriving DecidableEq, Repr

/-- R203. -/
def Scaled.count (r : Scaled) : Int := if r.neg then -(r.mag : Int) else (r.mag : Int)

/-- `f64(mag) ⊗ w`, or `f64(mag) ⊗ fneg(w)` when negative (R204 to R206). -/
def Scaled.value (r : Scaled) (w : Binary64) : Binary64 :=
  F64.mul (F64.ofNat r.mag) (if r.neg then F64.fneg w else w)

/-- The integer stage of SCALE_UNSIGNED: the sign bit is not read (R204). -/
def unsignedStage (e : Entry) (data : BitVec 19) : Scaled := ⟨false, e.field data⟩

/-- The integer stage of SCALE_SIGNED, sign-magnitude: `mag <- field & ~(1 << width)` (R206).
`~` on the infinite two's complement of 00_scope.md R5 agrees with 32 bits here: `field` has at most 20. -/
def signedStage (e : Entry) (data : BitVec 19) : Scaled :=
  if e.signBit data = 0 then ⟨false, e.field data⟩
  else ⟨true, (BitVec.ofNat 32 (e.field data) &&& ~~~(1#32 <<< e.width)).toNat⟩

/-- The integer stage of SCALE_TWOS: `mag <- (~(field - 1)) & mask` (R205), in 32 bits as above. -/
def twosStage (e : Entry) (data : BitVec 19) : Scaled :=
  if e.signBit data = 0 then ⟨false, e.field data⟩
  else ⟨true, ((~~~(BitVec.ofNat 32 (e.field data) - 1#32)) &&& BitVec.ofNat 32 e.mask).toNat⟩

/-- The `Value` event of a scaled result (R208). `phStart` is present whenever a run reaches this; absent, it is a
free value (log entry 13). -/
def valueEvent (r : Scaled) (e : Entry) (s : State) : Event :=
  .value (s.phStart.getD (Config.absentSpanStart s.idx)) (s.phStop.getD s.spanEnd) e.name r.count r.neg
    (r.value e.lsbWeight)

/-- SCALE with one integer stage: nothing happens while `sel` is absent (42_field_extractor.md R175). -/
def scaleWith (stage : Entry → BitVec 19 → Scaled) (s : State) : State :=
  match s.sel with
  | none => s
  | some e => emit (valueEvent (stage e s.data) e s) s

/-- `if sel present then SCALE(data, sel, e)`, the unit chosen by the entry's sign mode (30_encoding.md R103).
Code 3 is reserved, is refused with the configuration that holds it, and selects no unit (log entry 14). -/
def scaleWord (s : State) : State :=
  match s.sel with
  | none => s
  | some e =>
    if e.signMode = 0#2 then scaleWith unsignedStage s
    else if e.signMode = 1#2 then scaleWith signedStage s
    else if e.signMode = 2#2 then scaleWith twosStage s
    else s

/-- `CAPTURE_PH(k, e)` for a data bit, with `j = k - 10` (R207). -/
def capturePh (k : BitIndex) (s : State) : State :=
  match s.sel with
  | none => s
  | some e =>
    { s with
      phStart := if k.toNat - 10 = e.f - 11 then some s.idx else s.phStart
      phStop := if k.toNat - 10 = e.stopJ then some s.idx else s.phStop }

/-- SCALE_UNSIGNED as a functional unit (R204, R208). -/
def execScaleUnsigned (s : State) : Result := .next (scaleWith unsignedStage s)

/-- SCALE_SIGNED as a functional unit (R206, R208). -/
def execScaleSigned (s : State) : Result := .next (scaleWith signedStage s)

/-- SCALE_TWOS as a functional unit (R205, R208). -/
def execScaleTwos (s : State) : Result := .next (scaleWith twosStage s)

end Sys2Proof.Machine
end

