-- ==== Sys2Proof/Machine/FieldExtractor.lean ====
section
/-! DEFINITION. The field extractor: ACQUIRE, the nine field operations, and the three waiting and acquiring steps of
`BIT` (42_field_extractor.md R160 to R178). `e` is the current sample index and `b` its `pos` level. -/

namespace Sys2Proof.Machine

/-- `ACQUIRE(k, e, cur)` without the field operation that follows it (R165, R166, R167). -/
def acquire (k : BitIndex) (s : State) : State :=
  let s := emit (.bitValue s.idx s.spanEnd s.bitNow) s
  let s := emit (.bitOrdinal s.idx s.spanEnd (k.toNat + 1)) s
  let s := if k = 0#5 then { s with wordStart := s.idx } else s
  let s := if isFieldStart k then { s with fieldStart := s.idx } else s
  if isDataBit k then capturePh k s else s

/-- ACQ_LABEL (R170). -/
def acqLabel (k : BitIndex) (s : State) : State :=
  nextBit k { s with labelRaw := s.labelRaw ||| (s.bitNow.setWidth 8 <<< k.toNat) }

/-- ACQ_LABEL_LAST (R171). -/
def acqLabelLast (s : State) : State :=
  let s := { s with labelRaw := s.labelRaw ||| (s.bitNow.setWidth 8 <<< 7) }
  nextBit 7#5 (emit (.label s.fieldStart s.spanEnd s.labelRaw (disp s.labelRaw)) s)

/-- ACQ_SDI (R172). -/
def acqSdi (s : State) : State :=
  nextBit 8#5 { s with sdi := s.sdi ||| s.bitNow.setWidth 2 }

/-- ACQ_SDI_LAST (R173). -/
def acqSdiLast (s : State) : State :=
  let s := { s with sdi := s.sdi ||| (s.bitNow.setWidth 2 <<< 1) }
  nextBit 9#5 (resolveWord (emit (.sdi s.fieldStart s.spanEnd s.sdi) s))

/-- ACQ_DATA (R174). -/
def acqData (k : BitIndex) (s : State) : State :=
  nextBit k { s with data := s.data ||| (s.bitNow.setWidth 19 <<< (k.toNat - 10)) }

/-- ACQ_DATA_LAST (R175). -/
def acqDataLast (s : State) : State :=
  let s := { s with data := s.data ||| (s.bitNow.setWidth 19 <<< 18) }
  nextBit 28#5 (scaleWord (emit (.data s.fieldStart s.spanEnd s.data) s))

/-- ACQ_SSM (R176). -/
def acqSsm (s : State) : State :=
  nextBit 29#5 { s with ssm := s.ssm ||| s.bitNow.setWidth 2 }

/-- ACQ_SSM_LAST (R177). -/
def acqSsmLast (s : State) : State :=
  let s := { s with ssm := s.ssm ||| (s.bitNow.setWidth 2 <<< 1) }
  nextBit 30#5 (emit (.ssm s.fieldStart s.spanEnd s.ssm) s)

/-- The accumulators, the counter and the value-span registers cleared at the end of a word (R178). -/
def clearWord (s : State) : State :=
  { s with
    labelRaw := 0#8
    sdi := 0#2
    data := 0#19
    ssm := 0#2
    par := 0#1
    k := 0#5
    sel := none
    phStart := none
    phStop := none }

/-- ACQ_PARITY (R178). -/
def acqParity (s : State) : State :=
  let s := { s with par := s.bitNow }
  enterSync (clearWord (parityVerdict (emit (.parity s.fieldStart s.spanEnd s.par) s)))

/-- The field operation of bit `k` (30_encoding.md R103). -/
def fieldOp (k : BitIndex) (s : State) : State :=
  if k.toNat ≤ 6 then acqLabel k s
  else if k.toNat = 7 then acqLabelLast s
  else if k.toNat = 8 then acqSdi s
  else if k.toNat = 9 then acqSdiLast s
  else if k.toNat ≤ 27 then acqData k s
  else if k.toNat = 28 then acqDataLast s
  else if k.toNat = 29 then acqSsm s
  else if k.toNat = 30 then acqSsmLast s
  else acqParity s

/-- BIT_WAIT: no register changes but R121's (R161). -/
def execBitWait (s : State) : Result := endStep s

/-- BIT_EDGE: ACQUIRE, then the field operation of `k` (R162). -/
def execBitEdge (k : BitIndex) (s : State) : Result := endStep (fieldOp k (acquire k s))

/-- BIT_TIMEOUT: the same at the bound sample; no timeout flag is recorded (R163). -/
def execBitTimeout (k : BitIndex) (s : State) : Result := endStep (fieldOp k (acquire k s))

/-- ACQ_LABEL on its own. -/
def execAcqLabel (k : BitIndex) (s : State) : Result := .next (acqLabel k s)

/-- ACQ_LABEL_LAST on its own. -/
def execAcqLabelLast (s : State) : Result := .next (acqLabelLast s)

/-- ACQ_SDI on its own. -/
def execAcqSdi (s : State) : Result := .next (acqSdi s)

/-- ACQ_SDI_LAST on its own, with the resolver unit it invokes. -/
def execAcqSdiLast (s : State) : Result := .next (acqSdiLast s)

/-- ACQ_DATA on its own. -/
def execAcqData (k : BitIndex) (s : State) : Result := .next (acqData k s)

/-- ACQ_DATA_LAST on its own, with the scaler unit it invokes. -/
def execAcqDataLast (s : State) : Result := .next (acqDataLast s)

/-- ACQ_SSM on its own. -/
def execAcqSsm (s : State) : Result := .next (acqSsm s)

/-- ACQ_SSM_LAST on its own. -/
def execAcqSsmLast (s : State) : Result := .next (acqSsmLast s)

/-- ACQ_PARITY on its own, with the parity unit it invokes. -/
def execAcqParity (s : State) : Result := .next (acqParity s)

end Sys2Proof.Machine
end

