-- ==== Sys2Proof/Machine/WordSync.lean ====
section
/-! DEFINITION. The word synchronizer: SYNC_LOW, SYNC_BREAK, SYNC_SHORT, SYNC_FIRE (41_word_sync.md R142 to R145). -/

namespace Sys2Proof.Machine

/-- SYNC_LOW: `runLen <- runLen + 1` (R142). -/
def execSyncLow (s : State) : Result := endStep { s with runLen := s.runLen + 1 }

/-- SYNC_BREAK: `runLen <- 0` (R143). -/
def execSyncBreak (s : State) : Result := endStep { s with runLen := 0 }

/-- SYNC_SHORT: `runLen <- 0`; the pulse is not decoded (R144). -/
def execSyncShort (s : State) : Result := endStep { s with runLen := 0 }

/-- SYNC_FIRE: `ACQUIRE(0, s, cur)`, then ACQ_LABEL; `runLen` is left as it is (R145). -/
def execSyncFire (s : State) : Result := endStep (acqLabel 0#5 (acquire 0#5 s))

end Sys2Proof.Machine
end

