-- ==== Sys2Proof/Machine/Dispatch.lean ====
section
/-! DEFINITION. The meaning of every operation: one arm per constructor of Instr (30_encoding.md R101, R103). -/

namespace Sys2Proof.Machine

def exec (i : Instr) (s : State) : Host.Outcome State Fault Refusal :=
  match i with
  | .trWait => Sys2Proof.Machine.execTrWait s
  | .trEdge => Sys2Proof.Machine.execTrEdge s
  | .trHold => Sys2Proof.Machine.execTrHold s
  | .trMeasure => Sys2Proof.Machine.execTrMeasure s
  | .syncLow => Sys2Proof.Machine.execSyncLow s
  | .syncBreak => Sys2Proof.Machine.execSyncBreak s
  | .syncShort => Sys2Proof.Machine.execSyncShort s
  | .syncFire => Sys2Proof.Machine.execSyncFire s
  | .bitWait => Sys2Proof.Machine.execBitWait s
  | .bitEdge k => Sys2Proof.Machine.execBitEdge k s
  | .bitTimeout k => Sys2Proof.Machine.execBitTimeout k s
  | .faultHold => Sys2Proof.Machine.execFaultHold s
  | .acqLabel k => Sys2Proof.Machine.execAcqLabel k s
  | .acqLabelLast => Sys2Proof.Machine.execAcqLabelLast s
  | .acqSdi => Sys2Proof.Machine.execAcqSdi s
  | .acqSdiLast => Sys2Proof.Machine.execAcqSdiLast s
  | .acqData k => Sys2Proof.Machine.execAcqData k s
  | .acqDataLast => Sys2Proof.Machine.execAcqDataLast s
  | .acqSsm => Sys2Proof.Machine.execAcqSsm s
  | .acqSsmLast => Sys2Proof.Machine.execAcqSsmLast s
  | .acqParity => Sys2Proof.Machine.execAcqParity s
  | .resolveStatic => Sys2Proof.Machine.execResolveStatic s
  | .resolveTable => Sys2Proof.Machine.execResolveTable s
  | .scaleUnsigned => Sys2Proof.Machine.execScaleUnsigned s
  | .scaleSigned => Sys2Proof.Machine.execScaleSigned s
  | .scaleTwos => Sys2Proof.Machine.execScaleTwos s
  | .parityCheck => Sys2Proof.Machine.execParityCheck s

end Sys2Proof.Machine
end

