-- ==== Sys2Proof/Machine/HostPort.lean ====
section
/-! DEFINITION. The input side of a step: what the host does next (20_memory.md R70), the instruction the block forms
at a presented sample (30_encoding.md R100), and how a probe instruction is put where the next step finds it. -/

namespace Sys2Proof.Machine

/-- What the next interaction of the host leads to. -/
inductive Fetched where
  /-- The host has stopped: no step runs (70_reset_and_hazards.md R297). -/
  | stopped
  /-- An interaction that runs no operation has been handled. -/
  | handled (r : Result)
  /-- A sample is on the lines and the dispatch word selects this operation. -/
  | run (i : Instr) (s : State)
  /-- The decoder refuses the dispatch word; no state reaches this (log entry 21). -/
  | undecodable

/-- Drive `rst`. Asserting it ends the session; deasserting it runs the reset sequence (10_state.md R20,
70_reset_and_hazards.md R290, R292). A level that is already there is no change (log entry 3). -/
def driveRst (level : Bool) (s : State) : Result :=
  if level then .next { s with rst := true }
  else if s.rst then startSession { s with rst := false }
  else .next s

/-- Drive the configuration inputs: with `rst` asserted they are the next session's, otherwise a change of them
refuses the session (20_memory.md R68, 00_scope.md R6). -/
def driveConfig (c : Cfg) (s : State) : Result :=
  if s.rst then .next { s with cfgIn := c }
  else if c = s.cfgIn then .next s
  else .refused .configChanged

/-- A sample is on the lines: with `rst` asserted it is not consumed and nothing is emitted (70_reset_and_hazards.md
R290), otherwise the dispatch word selects the operation of this step (30_encoding.md R100, R101). -/
def presentSample (x : Sample) (s : State) : Fetched :=
  let s := { s with line := x }
  if s.rst then .handled (.next s)
  else
    match decodeDispatch s.dispatchWord with
    | .ok i => .run i s
    | .error _ => .undecodable

/-- Take the host's next interaction. The event port is empty before anything is emitted (10_state.md R37). -/
def fetch (s : State) : Fetched :=
  match s.host with
  | [] => .stopped
  | .rst level :: rest => .handled (driveRst level { s with host := rest, out := [] })
  | .config c :: rest => .handled (driveConfig c { s with host := rest, out := [] })
  | .sample x :: rest => presentSample x { s with host := rest, out := [] }

/-! ## Placing one instruction where the next step runs it (log entry 18) -/

/-- The phase of a phase code; the reserved codes name none (30_encoding.md R96). -/
def phaseOfCode (c : BitVec 3) : Option Phase :=
  if c = 0b000#3 then some .trRise
  else if c = 0b001#3 then some .trFall
  else if c = 0b010#3 then some .sync
  else if c = 0b011#3 then some .bit
  else if c = 0b111#3 then some .fault
  else none

/-- A previous and a current sample that show the given RISE, FALL and LOW (95_test_vectors.md section 2.1).
RISE with LOW cannot occur (30_encoding.md R102) and is read as RISE. -/
def samplesShowing (rise fall low : Bool) : Sample × Sample :=
  match rise, fall, low with
  | false, false, true => (⟨false, false⟩, ⟨false, false⟩)
  | false, true, true => (⟨false, true⟩, ⟨false, false⟩)
  | false, false, false => (⟨false, true⟩, ⟨false, true⟩)
  | false, true, false => (⟨true, true⟩, ⟨false, true⟩)
  | true, false, _ => (⟨false, false⟩, ⟨false, true⟩)
  | true, true, _ => (⟨true, false⟩, ⟨false, true⟩)

/-- The lines, the edge detector and the sample to come, with `rst` deasserted. -/
def placeSamples (prev cur : Sample) (s : State) : State :=
  { s with rst := false, prev := some prev, host := .sample cur :: s.host }

/-- Make GAPOK the given value: the threshold is `6h` (41_word_sync.md R141). -/
def placeGap (gapOk : Bool) (s : State) : State :=
  if gapOk then { s with runLen := 3 * s.bw }
  else { s with h := if s.h = 0 then 1 else s.h, runLen := 0 }

/-- Make TMO the given value: the bound is `eLast + 3h` (42_field_extractor.md R160). -/
def placeTimeout (tmo : Bool) (s : State) : State :=
  if tmo then { s with idx := s.eLast + s.bw + s.h }
  else { s with idx := if s.idx = s.eLast + s.bw + s.h then s.idx + 1 else s.idx }

/-- A state whose next step forms the dispatch word `w`. -/
def placeDispatch (w : DispatchWord) (s : State) : State :=
  match phaseOfCode w.ph with
  | none => s
  | some p =>
    let pair := samplesShowing (w.getLsbD 7) (w.getLsbD 6) (w.getLsbD 5)
    placeTimeout (w.getLsbD 3) (placeGap (w.getLsbD 4) (placeSamples pair.1 pair.2 { s with phase := p, k := w.k }))

/-- A state whose next step acquires bit `k`: BIT_EDGE at a rising edge on `pos`. -/
def placeAcquire (k : BitIndex) (s : State) : State :=
  placeSamples ⟨false, false⟩ ⟨false, true⟩ { s with phase := .bit, k := k }

/-- The entry a probe of a scaler unit scales with, if the state holds none: the narrowest legal window. -/
def probeEntry : Entry where
  name := ⟨0⟩
  address := 0#9
  identifier := 0#3
  firstBit := 11#5
  lastBit := 11#5
  signMode := 0#2
  lsbWeight := 0#64

/-- Put a decoded instruction's selector where the next step meets it. A field operation is met by acquiring its bit,
a resolver unit by acquiring bit 9 with its CTRL bits, a scaler unit by acquiring bit 28 with an entry of its sign
mode in `sel`, the parity unit by acquiring bit 31 (30_encoding.md R103). -/
def placeSelector (sel : Selector) (s : State) : State :=
  match sel with
  | .dispatch w => placeDispatch w s
  | .acq k => placeAcquire k s
  | .parityUnit k => placeAcquire k s
  | .ctrl c =>
    placeAcquire 9#5 { s with cfg := { s.cfg with ctrl := (s.cfg.ctrl &&& 0xF8#8) ||| c.setWidth 8 } }
  | .signMode m =>
    placeAcquire 28#5
      { s with
        sel := some { s.sel.getD probeEntry with signMode := m }
        phStart := some (s.phStart.getD s.idx) }

/-- Put the instruction a number of the opcode table stands for where the next step runs it. -/
def placeTableWord (nbits w : Nat) (s : State) : State :=
  match tableSelector nbits w with
  | none => s
  | some sel => placeSelector sel s

end Sys2Proof.Machine
end

