-- ==== Sys2Proof/Machine/Step.lean ====
section
/-! DEFINITION. One step: take the host's next interaction and, at a sample, run the one operation the dispatch word
selects (00_scope.md R4, 30_encoding.md R101). -/

namespace Sys2Proof.Machine

/-- One step of the block. When the host has stopped, no step runs and the state is kept
(70_reset_and_hazards.md R297, 60_exceptions.md R279). -/
def step (s : State) : Host.Outcome State Fault Refusal :=
  match fetch s with
  | .stopped => .next s
  | .handled r => r
  | .run i t => deliver (exec i t)
  | .undecodable => .fault .undecodableDispatch

/-- `s` with the instruction that a number of the opcode table stands for placed where the next step runs it. -/
def State.withFetchWord (s : State) (nbits w : Nat) : State := placeTableWord nbits w s

end Sys2Proof.Machine
end

