-- ==== Sys2Proof/Machine/Events.lean ====
section
/-! DEFINITION. The event records' common fields, kind codes and sink categories (30_encoding.md R110, R111). -/

namespace Sys2Proof.Machine

/-- The first sample index of an event's span. -/
def Event.start : Event → Nat
  | .bitValue a _ _ => a
  | .label a _ _ _ => a
  | .sdi a _ _ => a
  | .data a _ _ => a
  | .ssm a _ _ => a
  | .parity a _ _ => a
  | .bitOrdinal a _ _ => a
  | .value a _ _ _ _ _ => a
  | .verdict a _ _ => a

/-- The last sample index of an event's span. -/
def Event.stop : Event → Nat
  | .bitValue _ b _ => b
  | .label _ b _ _ => b
  | .sdi _ b _ => b
  | .data _ b _ => b
  | .ssm _ b _ => b
  | .parity _ b _ => b
  | .bitOrdinal _ b _ => b
  | .value _ b _ _ _ _ => b
  | .verdict _ b _ => b

/-- The kind codes (R110). -/
def Event.kind : Event → Nat
  | .bitValue _ _ _ => 0
  | .label _ _ _ _ => 1
  | .sdi _ _ _ => 2
  | .data _ _ _ => 3
  | .ssm _ _ _ => 4
  | .parity _ _ _ => 5
  | .bitOrdinal _ _ _ => 6
  | .value _ _ _ _ _ _ => 7
  | .verdict _ _ _ => 8

/-- The sink categories (R111). -/
inductive SinkCategory where
  | bitValue
  | label
  | identifier
  | data
  | matrix
  | parity
  | bitOrdinal
  | decodedValue
  deriving DecidableEq, Repr

/-- The category an event is delivered in; the verdict goes to "parity" (R111). -/
def Event.category : Event → SinkCategory
  | .bitValue _ _ _ => .bitValue
  | .label _ _ _ _ => .label
  | .sdi _ _ _ => .identifier
  | .data _ _ _ => .data
  | .ssm _ _ _ => .matrix
  | .parity _ _ _ => .parity
  | .bitOrdinal _ _ _ => .bitOrdinal
  | .value _ _ _ _ _ _ => .decodedValue
  | .verdict _ _ _ => .parity

/-- The text of a verdict (R110); the other texts are the sink's (R111). -/
def verdictText (ok : Bool) : String := if ok then "Ok" else "Er"

end Sys2Proof.Machine
end

