-- ==== Sys2Proof/Machine/Stimulus.lean ====
section
/-! DEFINITION. The stimulus notation: tokens and macros as lists of samples (30_encoding.md R116, R117). -/

namespace Sys2Proof.Machine

/-- Token `N`, the line state NULL (R80, R116). -/
def Sample.N : Sample := ⟨false, false⟩

/-- Token `H`, HI. -/
def Sample.H : Sample := ⟨false, true⟩

/-- Token `L`, LO. -/
def Sample.L : Sample := ⟨true, false⟩

/-- Token `X`, INVALID: both lines high. -/
def Sample.X : Sample := ⟨true, true⟩

/-- The 2-bit `line` value of a sample, `line[1] = neg`, `line[0] = pos` (R80). -/
def Sample.code (x : Sample) : BitVec 2 := BitVec.ofBool x.neg ++ BitVec.ofBool x.pos

/-- Macros `B1` and `B0`: a half-bit pulse, then a half-bit NULL (R117). -/
def idealBit (h : Nat) (b : Bool) : List Sample :=
  List.replicate h (if b then Sample.H else Sample.L) ++ List.replicate h Sample.N

/-- Macro `GAP(n)` (R117). -/
def gapSamples (n : Nat) : List Sample := List.replicate n Sample.N

/-- Macro `PULSE`: a lone HI pulse of one half bit (R117). -/
def pulse (h : Nat) : List Sample := List.replicate h Sample.H

/-- Macro `WORD(W)`: its 32 ideal bits in reception order (R117, R88). -/
def idealWord (h : Nat) (w : BitVec 32) : List Sample :=
  (List.range 32).flatMap (fun k => idealBit h (w.getLsbD k))

/-- Samples as the host supplies them. -/
def supply (xs : List Sample) : List HostInput := xs.map HostInput.sample

end Sys2Proof.Machine
end

