-- ==== Sys2Proof/Safety.lean ====
section
/-! DEFINITION. The terms claims use: the invariant of the machine, the order of the event stream, the exact value of a
binary64 datum, and the events of an ideal word. -/

namespace Sys2Proof.Machine

/-- A window and a sign mode the scaler accepts: `11 ≤ f ≤ l ≤ 29`, a mode code of 30_encoding.md R94. -/
def Entry.legal (e : Entry) : Bool := windowOk e.firstBit e.lastBit && decide (e.signMode.toNat ≤ 2)

/-- Every datapath register at its reset value but `phase` and `faultCode` (10_state.md R51, 60_exceptions.md R272). -/
def State.registersAtReset (s : State) : Prop :=
  s.k = 0#5 ∧ s.labelRaw = 0#8 ∧ s.sdi = 0#2 ∧ s.data = 0#19 ∧ s.ssm = 0#2 ∧ s.par = 0#1 ∧ s.prev = none ∧ s.idx = 0 ∧
    s.sR = 0 ∧ s.h = 0 ∧ s.runLen = 0 ∧ s.eLast = 0 ∧ s.wordStart = 0 ∧ s.fieldStart = 0 ∧ s.sel = none ∧
    s.phStart = none ∧ s.phStop = none

/-- The invariant of the machine: what the rules say of every state a session can be in. -/
structure State.Inv (s : State) : Prop where
  /-- 10_state.md R34: the latched configuration is well formed. -/
  cfgWellFormed : s.cfg.check = none
  /-- 20_memory.md R68: outside reset the inputs hold the latched configuration. -/
  pinsHeld : s.rst = false → s.cfgIn = s.cfg
  /-- 10_state.md R26: the static weight is the one computed at reset. -/
  weightLatched : s.stWeight = s.cfg.staticWeight
  /-- 10_state.md R42: `k` counts in `BIT` and is 0 in every other phase. -/
  bitIffCounting : s.phase = .bit ↔ s.k ≠ 0#5
  /-- 60_exceptions.md R262: a fault code and the phase `FAULT` go together. -/
  faultIffCode : s.phase = .fault ↔ s.faultCode ≠ 0#2
  /-- 60_exceptions.md R260: code 3 is never raised. -/
  faultCodeLegal : s.faultCode ≠ 3#2
  /-- 60_exceptions.md R272: a faulted session is at its reset state. -/
  faultAtReset : s.phase = .fault → s.registersAtReset
  /-- 60_exceptions.md R261: a session that runs has passed the reset checks. -/
  runningChecked : s.phase ≠ .fault → s.cfg.srValid = true ∧ (s.cfg.tableMode = true → s.cfg.tblPresent = true)
  /-- 10_state.md R44: `prev` is absent exactly before the first sample. -/
  prevAfterFirst : s.prev = none ↔ s.idx = 0
  /-- 10_state.md R51: nothing is measured before the first rising edge. -/
  trRiseTiming : s.phase = .trRise → s.sR = 0 ∧ s.h = 0
  /-- 40_bit_timing.md R125: the first rising edge lies behind. -/
  trFallTiming : s.phase = .trFall → s.h = 0 ∧ s.sR < s.idx
  /-- 40_bit_timing.md R126: `h ≥ 1` once measured. -/
  measured : s.phase = .sync ∨ s.phase = .bit → 1 ≤ s.h
  /-- 42_field_extractor.md R160: the wait for a bit never passes its bound. -/
  waitBounded : s.phase = .bit → s.eLast < s.idx ∧ s.idx ≤ s.eLast + 3 * s.h
  /-- 10_state.md R48: the positions of the current word, in order. -/
  positionsOrdered : s.phase = .bit → s.wordStart ≤ s.fieldStart ∧ s.fieldStart ≤ s.eLast
  /-- 30_encoding.md R87: a label bit not yet received is 0. -/
  labelReceived : s.labelRaw.toNat < 2 ^ s.k.toNat
  /-- 30_encoding.md R87: an SDI bit not yet received is 0. -/
  sdiReceived : s.sdi.toNat < 2 ^ (s.k.toNat - 8)
  /-- 30_encoding.md R87: a data bit not yet received is 0. -/
  dataReceived : s.data.toNat < 2 ^ (s.k.toNat - 10)
  /-- 30_encoding.md R87: an SSM bit not yet received is 0. -/
  ssmReceived : s.ssm.toNat < 2 ^ (s.k.toNat - 29)
  /-- 42_field_extractor.md R178: the parity bit is cleared in the step that reads it. -/
  parCleared : s.par = 0#1
  /-- 42_field_extractor.md R173: an entry is resolved after bit 9, only when value decoding is enabled. -/
  selResolved : ∀ e, s.sel = some e → s.cfg.decEn = true ∧ 10 ≤ s.k.toNat ∧ e.legal = true
  /-- 43_value_scaler.md R207: no span position without an entry. -/
  spanNeedsSel : s.sel = none → s.phStart = none ∧ s.phStop = none
  /-- 43_value_scaler.md R207: `phStart` is the leading edge of data bit `f`. -/
  startCaptured : ∀ e, s.sel = some e → (s.phStart.isSome = true ↔ e.f ≤ s.k.toNat)
  /-- 43_value_scaler.md R207, R208: `phStop` is captured unless the window runs past the data field. -/
  stopCaptured : ∀ e, s.sel = some e → (s.phStop.isSome = true ↔ e.stopJ ≤ 18 ∧ e.stopJ + 10 < s.k.toNat)
  /-- The captured positions are leading edges of the current word. -/
  spanWithinWord : ∀ p, (s.phStart = some p ∨ s.phStop = some p) → s.wordStart ≤ p ∧ p ≤ s.eLast

/-- Events of one kind have strictly increasing `start` (20_memory.md R71). -/
def orderedPerKind (evs : List Event) : Prop :=
  evs.Pairwise (fun a b => a.kind = b.kind → a.start < b.start)

/-- A sample index that no event of this kind emitted so far has reached, and that the next one will reach:
where the pending field, value or word starts, or else the next sample. -/
def State.nextStart (s : State) (kind : Nat) : Nat :=
  if s.phase ≠ .bit then s.idx
  else if kind = 1 ∧ s.k.toNat ≤ 7 then s.fieldStart
  else if kind = 2 ∧ s.k.toNat = 9 then s.fieldStart
  else if kind = 3 ∧ 11 ≤ s.k.toNat ∧ s.k.toNat ≤ 28 then s.fieldStart
  else if kind = 4 ∧ s.k.toNat = 30 then s.fieldStart
  else if kind = 7 ∧ s.k.toNat ≤ 28 then s.phStart.getD s.idx
  else if kind = 8 then s.wordStart
  else s.idx

/-- The event stream of the session is in order (20_memory.md R71), as an invariant of every step. -/
structure State.StreamInv (s : State) : Prop where
  inv : s.Inv
  ordered : orderedPerKind s.stream
  behind : ∀ ev ∈ s.stream, ev.start < s.nextStart ev.kind

/-! ## The exact value of a binary64 datum -/

/-- The value of a finite datum, exact. -/
def F64.toRat (a : Binary64) : ℚ :=
  (if F64.sign a then -1 else 1) * (F64.sig a : ℚ) * (2 : ℚ) ^ F64.exp a

/-! ## The events of an ideal word (42_field_extractor.md R182) -/

/-- The events of bit `k` of a word `w` at half-bit `h` whose bit 0 is acquired at `e0`, but for `Value`
(R166, R167, R180, and 44_parity.md R231 for the verdict). -/
def idealBitEvents (e0 h : Nat) (w : BitVec 32) (k : Nat) : List Event :=
  let e := e0 + 2 * h * k
  [.bitValue e (e + h) (BitVec.ofBool (w.getLsbD k)), .bitOrdinal e (e + h) (k + 1)] ++
    (if k = 7 then [.label e0 (e + h) (w.extractLsb' 0 8) (disp (w.extractLsb' 0 8))]
    else if k = 9 then [.sdi (e0 + 2 * h * 8) (e + h) (w.extractLsb' 8 2)]
    else if k = 28 then [.data (e0 + 2 * h * 10) (e + h) (w.extractLsb' 10 19)]
    else if k = 30 then [.ssm (e0 + 2 * h * 29) (e + h) (w.extractLsb' 29 2)]
    else if k = 31 then [.parity e (e + h) (w.extractLsb' 31 1), .verdict e0 (e + h) (popcount w % 2 == 1)]
    else [])

/-- The events of the whole word, but for `Value`. -/
def idealWordEvents (e0 h : Nat) (w : BitVec 32) : List Event :=
  (List.range 32).flatMap (idealBitEvents e0 h w)

/-- An event stream without its `Value` events. -/
def withoutValues (evs : List Event) : List Event := evs.filter (fun ev => ev.kind != 7)

end Sys2Proof.Machine
end

