-- ==== Sys2Proof/Certificates/Slice0/Obligations.lean ====
section
/-! DEFINITION. The statements for the provers, drawn from the numbered rules of spec/ file by file. -/

open Sys2Proof Sys2Proof.Machine

/-! ## Encodings -/

/-- 30_encoding.md section 6: words written out bit by bit (PH K RISE FALL LOW GAPOK TMO 000) decode to the
operation they stand for. That the decoder refuses a word of the reserved phase 100 and sign-mode code 3 by name is the
model's choice (log entries 16 and 14): R96 and R102 only call the phase unreachable, R114 the configuration refused. -/
def Obligations.WrittenOutWordsDecode : Prop :=
  decodeDispatch 0b000_00000_1_0_0_0_0_000#16 = .ok .trEdge ∧
  decodeDispatch 0b001_00000_0_1_1_0_0_000#16 = .ok .trMeasure ∧
  decodeDispatch 0b010_00000_1_0_0_1_0_000#16 = .ok .syncFire ∧
  decodeDispatch 0b011_10101_1_0_0_0_0_000#16 = .ok (.bitEdge 21#5) ∧
  decodeDispatch 0b011_11111_0_0_1_0_1_000#16 = .ok (.bitTimeout 31#5) ∧
  decodeDispatch 0b111_00000_0_0_0_0_0_000#16 = .ok .faultHold ∧
  decodeDispatch 0b100_00000_0_0_0_0_0_000#16 = .error .reservedPhase ∧
  decode (.acq 0b11100#5) = .ok .acqDataLast ∧
  decode (.ctrl 0b110#3) = .ok .resolveTable ∧
  decode (.signMode 0b10#2) = .ok .scaleTwos ∧
  decode (.signMode 0b11#2) = .error .reservedSignMode ∧
  decode (.parityUnit 0b11111#5) = .ok .parityCheck

/-- 30_encoding.md R101, R103: no bit of an encoding is dropped, for every well-formed instruction. -/
def Obligations.DecodeOfEncodeIsIdentity : Prop :=
  ∀ i : Instr, i.wf = true → decode (encode i) = .ok i

/-- 30_encoding.md R100, R101: the dispatch word holds the phase code, `k` and the five conditions, and the operation
it selects is the one row of the table that matches. -/
def Obligations.DispatchSelectsByPhaseAndConditions : Prop :=
  ∀ s : State,
    s.dispatchWord.ph = s.phase.code ∧ s.dispatchWord.k = s.k ∧
    s.dispatchWord.getLsbD 7 = s.rise ∧ s.dispatchWord.getLsbD 6 = s.fall ∧ s.dispatchWord.getLsbD 5 = s.low ∧
    s.dispatchWord.getLsbD 4 = decide (3 * (2 * s.h) ≤ s.runLen) ∧
    s.dispatchWord.getLsbD 3 = decide (s.idx = s.eLast + 2 * s.h + s.h) ∧
    s.dispatchWord.extractLsb' 0 3 = 0#3 ∧
    decodeDispatch s.dispatchWord = .ok (
      match s.phase with
      | .trRise => if s.rise then .trEdge else .trWait
      | .trFall => if s.fall then .trMeasure else .trHold
      | .sync =>
        if s.rise then (if s.gapOk then .syncFire else .syncShort) else (if s.low then .syncLow else .syncBreak)
      | .bit => if s.rise then .bitEdge s.k else (if s.tmo then .bitTimeout s.k else .bitWait)
      | .fault => .faultHold)

/-- 30_encoding.md R103: SYNC_FIRE acquires bit 0, BIT_EDGE and BIT_TIMEOUT acquire bit `k`; each runs ACQUIRE and then
the one field operation of that bit; the resolver, scaler and parity units run inside their field operations. -/
def Obligations.AcquiredBitRunsItsFieldOperation : Prop :=
  (∀ k : BitIndex,
    (k.toNat ≤ 6 → decodeAcq k = .acqLabel k) ∧ (k.toNat = 7 → decodeAcq k = .acqLabelLast) ∧
    (k.toNat = 8 → decodeAcq k = .acqSdi) ∧ (k.toNat = 9 → decodeAcq k = .acqSdiLast) ∧
    (10 ≤ k.toNat ∧ k.toNat ≤ 27 → decodeAcq k = .acqData k) ∧ (k.toNat = 28 → decodeAcq k = .acqDataLast) ∧
    (k.toNat = 29 → decodeAcq k = .acqSsm) ∧ (k.toNat = 30 → decodeAcq k = .acqSsmLast) ∧
    (k.toNat = 31 → decodeAcq k = .acqParity)) ∧
  (∀ (k : BitIndex) (s : State),
    let whole : Result := match exec (decodeAcq k) (acquire k s) with
      | .next t => endStep t
      | r => r
    exec (.bitEdge k) s = whole ∧ exec (.bitTimeout k) s = whole ∧ (k = 0#5 → exec .syncFire s = whole)) ∧
  (∀ s : State, s.cfg.decEn = true →
    ∃ t u, exec .acqSdiLast s = .next t ∧
      exec (if s.cfg.mode then .resolveTable else .resolveStatic)
        { s with sdi := s.sdi ||| (s.bitNow.setWidth 2 <<< 1) } = .next u ∧ t.sel = u.sel) ∧
  (∀ (s : State) (e : Entry), s.sel = some e → e.signMode ≠ 3#2 →
    ∃ t u, exec .acqDataLast s = .next t ∧
      exec (if e.signMode = 0#2 then .scaleUnsigned else if e.signMode = 1#2 then .scaleSigned else .scaleTwos)
        { s with
          data := s.data ||| (s.bitNow.setWidth 19 <<< 18)
          out := s.out ++ [.data s.fieldStart (s.idx + s.h) (s.data ||| (s.bitNow.setWidth 19 <<< 18))] } = .next u ∧
      t.out = u.out) ∧
  (∀ s : State,
    ∃ t u, exec .acqParity s = .next t ∧
      exec .parityCheck
        { s with
          par := s.bitNow
          out := s.out ++ [.parity s.fieldStart (s.idx + s.h) s.bitNow] } = .next u ∧
      t.out = u.out)

/-- 30_encoding.md R81: an INVALID sample goes through the ordinary rules. -/
def Obligations.InvalidSamplePassesThrough : Prop :=
  ∀ s : State, s.line.neg = true → s.line.pos = true →
    s.low = false ∧ s.fall = false ∧
    (∀ p, s.prev = some p → (s.rise = true ↔ p.neg = false ∨ p.pos = false)) ∧ s.bitNow = 1#1

/-- 30_encoding.md R90, R91: the display form is a bijection from the raw labels onto the display values. -/
def Obligations.LabelDisplayIsBijective : Prop :=
  (∀ raw : BitVec 8,
    disp raw = raw.toNat % 8 + 10 * (raw.toNat / 8 % 8) + 100 * (raw.toNat / 64) ∧
    isDisplay (disp raw) = true ∧ undisp (disp raw) = raw.toNat) ∧
  (∀ d : Nat, isDisplay d = true ↔ ∃ d2 d1 d0, d2 ≤ 3 ∧ d1 ≤ 7 ∧ d0 ≤ 7 ∧ d = d2 * 100 + d1 * 10 + d0) ∧
  (∀ d : Nat, isDisplay d = true → undisp d < 256 ∧ disp (BitVec.ofNat 8 (undisp d)) = d)

/-! ## The step -/

/-- 00_scope.md R4, 30_encoding.md R100, 20_memory.md R65: at a sample the step is `exec` of the decoded operation on
the state with that sample on the lines and an empty event port, and then the step's events join the stream together. -/
def Obligations.StepRunsDecodedInstruction : Prop :=
  ∀ (s : State) (x : Sample) (rest : List HostInput) (i : Instr),
    s.rst = false → s.host = .sample x :: rest →
    decodeDispatch (State.dispatchWord { s with host := rest, out := [], line := x }) = .ok i → i.wf = true →
    step s = (
      match exec i { s with host := rest, out := [], line := x } with
      | .next t => .next { t with stream := t.stream ++ t.out }
      | .fault f => .fault f
      | .refused r => .refused r)

/-- 70_reset_and_hazards.md R297, 60_exceptions.md R279: when the host has stopped, the state is kept. That this
is answered as a next state is the model's choice (log entry 2). -/
def Obligations.StoppedHostKeepsState : Prop :=
  ∀ s : State, s.host = [] → step s = .next s

/-- 60_exceptions.md R263, 70_reset_and_hazards.md R303: FAULT_HOLD changes no register and emits nothing; the sample
presented is not consumed. That it nevertheless leaves the host list and shows on the line pins (third clause) is the
model's choice (log entry 5). -/
def Obligations.FaultedSessionHoldsItsState : Prop :=
  (∀ s : State, exec .faultHold s = .next s) ∧
  (∀ s : State, s.phase = .fault → decodeDispatch s.dispatchWord = .ok .faultHold) ∧
  (∀ (s : State) (x : Sample) (rest : List HostInput),
    s.phase = .fault → s.rst = false → s.host = .sample x :: rest →
    step s = .next { s with host := rest, line := x, out := [] })

/-- 40_bit_timing.md R121: every step outside FAULT ends with `prev <- cur` and `idx <- idx + 1`. -/
def Obligations.StepConsumesItsSample : Prop :=
  ∀ (s t : State) (x : Sample) (rest : List HostInput),
    s.rst = false → s.host = .sample x :: rest → s.phase ≠ .fault → step s = .next t →
    t.prev = some x ∧ t.idx = s.idx + 1 ∧ t.line = x ∧ t.host = rest

/-! ## Bit-timing recovery -/

/-- 40_bit_timing.md R120. -/
def Obligations.EdgeAndLevelConditions : Prop :=
  ∀ s : State,
    (s.prev = none → s.rise = false ∧ s.fall = false) ∧
    (∀ p, s.prev = some p →
      (s.rise = true ↔ (p.neg = false ∧ s.line.neg = true) ∨ (p.pos = false ∧ s.line.pos = true)) ∧
      (s.fall = true ↔ (p.neg = true ∧ s.line.neg = false) ∨ (p.pos = true ∧ s.line.pos = false))) ∧
    (s.low = true ↔ s.line.neg = false ∧ s.line.pos = false)

/-- 40_bit_timing.md R124, R127, 42_field_extractor.md R161: the waiting operations change nothing but what R121
says of every step, and when they are selected. -/
def Obligations.WaitingOperationsOnlyConsume : Prop :=
  ∀ s : State,
    let t : State := { s with prev := some s.line, idx := s.idx + 1 }
    (t.fits = true → exec .trWait s = .next t ∧ exec .trHold s = .next t ∧ exec .bitWait s = .next t) ∧
    (s.phase = .trRise → s.rise = false → decodeDispatch s.dispatchWord = .ok .trWait) ∧
    (s.phase = .trFall → s.fall = false → decodeDispatch s.dispatchWord = .ok .trHold) ∧
    (s.phase = .bit → s.rise = false → s.idx ≠ s.eLast + 3 * s.h → decodeDispatch s.dispatchWord = .ok .bitWait)

/-- 40_bit_timing.md R125. -/
def Obligations.TrEdgeRecordsTheRisingEdge : Prop :=
  ∀ s : State,
    let t : State := { s with sR := s.idx, phase := .trFall, prev := some s.line, idx := s.idx + 1 }
    (t.fits = true → exec .trEdge s = .next t) ∧
    (s.phase = .trRise → s.rise = true → decodeDispatch s.dispatchWord = .ok .trEdge)

/-- 40_bit_timing.md R126, 41_word_sync.md R140: TR_MEASURE measures the half bit and arms the gap detector, as
ACQ_PARITY does at the end of a word. -/
def Obligations.TrMeasureMeasuresAndArms : Prop :=
  ∀ s : State,
    let armed : Nat := if s.line.neg = false ∧ s.line.pos = false then 1 else 0
    let t : State :=
      { s with h := s.idx - s.sR, phase := .sync, runLen := armed, prev := some s.line, idx := s.idx + 1 }
    (t.fits = true → exec .trMeasure s = .next t) ∧
    (s.sR < s.idx → 1 ≤ s.idx - s.sR) ∧
    (s.phase = .trFall → s.fall = true → decodeDispatch s.dispatchWord = .ok .trMeasure) ∧
    (∀ u, exec .acqParity s = .next u → u.phase = .sync ∧ u.runLen = armed)

/-- 40_bit_timing.md R128: `h` is written by TR_MEASURE only, and once the session is past bit-timing recovery no
sample brings it back there. -/
def Obligations.HalfBitIsMeasuredOnce : Prop :=
  (∀ (i : Instr) (s t : State), i ≠ .trMeasure → exec i s = .next t → t.h = s.h) ∧
  (∀ (s t : State) (x : Sample) (rest : List HostInput),
    s.host = .sample x :: rest → s.phase = .sync ∨ s.phase = .bit → step s = .next t →
    t.h = s.h ∧ (t.phase = .sync ∨ t.phase = .bit))

/-! ## Word synchronizer -/

/-- 41_word_sync.md R142, R143, R144. -/
def Obligations.GapDetectorCountsAndBreaks : Prop :=
  ∀ s : State,
    let counted : State := { s with runLen := s.runLen + 1, prev := some s.line, idx := s.idx + 1 }
    let broken : State := { s with runLen := 0, prev := some s.line, idx := s.idx + 1 }
    (counted.fits = true → exec .syncLow s = .next counted) ∧
    (broken.fits = true → exec .syncBreak s = .next broken ∧ exec .syncShort s = .next broken) ∧
    (s.phase = .sync → s.rise = false → s.low = true → decodeDispatch s.dispatchWord = .ok .syncLow) ∧
    (s.phase = .sync → s.rise = false → s.low = false → decodeDispatch s.dispatchWord = .ok .syncBreak) ∧
    (s.phase = .sync → s.rise = true → s.gapOk = false → decodeDispatch s.dispatchWord = .ok .syncShort)

/-- 41_word_sync.md R145: SYNC_FIRE acquires bit 0 and leaves `runLen` as it is. -/
def Obligations.SyncFireStartsAWord : Prop :=
  ∀ s : State,
    let t : State :=
      { s with
        out := s.out ++ [.bitValue s.idx (s.idx + s.h) (BitVec.ofBool s.line.pos), .bitOrdinal s.idx (s.idx + s.h) 1]
        labelRaw := s.labelRaw ||| (BitVec.ofBool s.line.pos).setWidth 8
        wordStart := s.idx
        fieldStart := s.idx
        eLast := s.idx
        k := 1#5
        phase := .bit
        prev := some s.line
        idx := s.idx + 1 }
    (t.fits = true → exec .syncFire s = .next t) ∧
    (s.phase = .sync → s.rise = true → s.gapOk = true → decodeDispatch s.dispatchWord = .ok .syncFire)

/-- 41_word_sync.md R141, R144, R145: a rising edge fires exactly on a both-low run of at least `6h` samples. -/
def Obligations.GapFiresFromThreeBitWidths : Prop :=
  ∀ s : State, s.phase = .sync → s.rise = true →
    (decodeDispatch s.dispatchWord = .ok .syncFire ↔ 6 * s.h ≤ s.runLen) ∧
    (s.runLen + 1 = 3 * (2 * s.h) → decodeDispatch s.dispatchWord = .ok .syncShort)

/-! ## Field extractor -/

/-- 42_field_extractor.md R162, R163: a rising edge acquires bit `k`, however early and also at the bound; without one
the bound does. Both complete as ACQUIRE, the field operation and R121. -/
def Obligations.BitEdgeAndTimeoutAcquire : Prop :=
  ∀ (k : BitIndex) (s : State),
    let u : State := fieldOp k (acquire k s)
    let t : State := { u with prev := some s.line, idx := s.idx + 1 }
    (t.fits = true → exec (.bitEdge k) s = .next t ∧ exec (.bitTimeout k) s = .next t) ∧
    (s.phase = .bit → s.rise = true → decodeDispatch s.dispatchWord = .ok (.bitEdge s.k)) ∧
    (s.phase = .bit → s.rise = false → s.idx = s.eLast + 3 * s.h →
      decodeDispatch s.dispatchWord = .ok (.bitTimeout s.k))

/-- 42_field_extractor.md R166, with R164 and R167: the events of an acquiring step, in order. -/
def Obligations.AcquiredBitEmitsInOrder : Prop :=
  ∀ (k : BitIndex) (s t : State),
    exec (.bitEdge k) s = .next t ∨ exec (.bitTimeout k) s = .next t ∨ (k = 0#5 ∧ exec .syncFire s = .next t) →
    ∃ more, t.out = s.out ++ [.bitValue s.idx (s.idx + s.h) (BitVec.ofBool s.line.pos),
        .bitOrdinal s.idx (s.idx + s.h) (k.toNat + 1)] ++ more ∧
      (k.toNat = 7 → ∃ raw, more = [.label s.fieldStart (s.idx + s.h) raw (disp raw)]) ∧
      (k.toNat = 9 → ∃ v, more = [.sdi s.fieldStart (s.idx + s.h) v]) ∧
      (k.toNat = 28 → ∃ v, more = [.data s.fieldStart (s.idx + s.h) v] ∨
        ∃ ev, ev.kind = 7 ∧ more = [.data s.fieldStart (s.idx + s.h) v, ev]) ∧
      (k.toNat = 30 → ∃ v, more = [.ssm s.fieldStart (s.idx + s.h) v]) ∧
      (k.toNat = 31 → ∃ ok, more = [.parity s.idx (s.idx + s.h) (BitVec.ofBool s.line.pos),
        .verdict s.wordStart (s.idx + s.h) ok]) ∧
      (k.toNat ≠ 7 ∧ k.toNat ≠ 9 ∧ k.toNat ≠ 28 ∧ k.toNat ≠ 30 ∧ k.toNat ≠ 31 → more = [])

/-- 42_field_extractor.md R165, R168, 43_value_scaler.md R207: the position registers, the span captures and the
counter after an acquisition. -/
def Obligations.AcquisitionWritesPositions : Prop :=
  ∀ (k : BitIndex) (s t : State),
    exec (.bitEdge k) s = .next t ∨ exec (.bitTimeout k) s = .next t ∨ (k = 0#5 ∧ exec .syncFire s = .next t) →
    t.wordStart = (if k.toNat = 0 then s.idx else s.wordStart) ∧
    t.fieldStart = (if k.toNat = 0 ∨ k.toNat = 8 ∨ k.toNat = 10 ∨ k.toNat = 29 ∨ k.toNat = 31 then s.idx
      else s.fieldStart) ∧
    (k.toNat ≠ 31 → t.k = k + 1#5 ∧ t.eLast = s.idx ∧ t.phase = .bit) ∧
    (∀ e, s.sel = some e → 10 ≤ k.toNat → k.toNat ≤ 28 →
      let stopJ : Nat := if e.signMode = 0#2 then e.l - 11 + 1 else e.l - 11 + 2
      t.phStart = (if k.toNat - 10 = e.f - 11 then some s.idx else s.phStart) ∧
      t.phStop = (if k.toNat - 10 = stopJ then some s.idx else s.phStop)) ∧
    (k.toNat ≠ 31 → s.sel = none ∨ k.toNat < 10 ∨ 28 < k.toNat → t.phStart = s.phStart ∧ t.phStop = s.phStop)

/-- 10_state.md R40 to R52: what an acquiring step leaves alone (its frame). -/
def Obligations.AcquisitionFrame : Prop :=
  ∀ (k : BitIndex) (s t : State),
    exec (.bitEdge k) s = .next t ∨ exec (.bitTimeout k) s = .next t ∨ (k = 0#5 ∧ exec .syncFire s = .next t) →
    t.rst = s.rst ∧ t.line = s.line ∧ t.cfgIn = s.cfgIn ∧ t.cfg = s.cfg ∧ t.stWeight = s.stWeight ∧
    t.idxWidth = s.idxWidth ∧ t.cntWidth = s.cntWidth ∧ t.sR = s.sR ∧ t.h = s.h ∧ t.faultCode = s.faultCode ∧
    t.stream = s.stream ∧ t.earlier = s.earlier ∧ t.host = s.host ∧
    (k.toNat ≠ 31 → t.runLen = s.runLen ∧ t.par = s.par ∧ (k.toNat ≠ 9 → t.sel = s.sel)) ∧
    (7 < k.toNat ∧ k.toNat ≠ 31 → t.labelRaw = s.labelRaw) ∧
    (k.toNat ≠ 8 ∧ k.toNat ≠ 9 ∧ k.toNat ≠ 31 → t.sdi = s.sdi) ∧
    (k.toNat < 10 ∨ k.toNat = 29 ∨ k.toNat = 30 → t.data = s.data) ∧
    (k.toNat < 29 → t.ssm = s.ssm)

/-- 42_field_extractor.md R170. -/
def Obligations.AcqLabelSetsItsBit : Prop :=
  ∀ (k : BitIndex) (s : State),
    (exec (.acqLabel k) s = .next
      { s with
        labelRaw := s.labelRaw ||| ((BitVec.ofBool s.line.pos).setWidth 8 <<< k.toNat)
        k := k + 1#5
        eLast := s.idx
        phase := .bit }) ∧
    (k.toNat ≤ 6 → decodeAcq k = .acqLabel k)

/-- 42_field_extractor.md R171. -/
def Obligations.AcqLabelLastEmitsTheLabel : Prop :=
  decodeAcq 7#5 = .acqLabelLast ∧
  ∀ s : State,
    let raw : BitVec 8 := s.labelRaw ||| ((BitVec.ofBool s.line.pos).setWidth 8 <<< 7)
    exec .acqLabelLast s = .next
      { s with
        labelRaw := raw
        out := s.out ++ [.label s.fieldStart (s.idx + s.h) raw (disp raw)]
        k := 8#5
        eLast := s.idx
        phase := .bit }

/-- 42_field_extractor.md R172, R176. -/
def Obligations.AcqSdiAndSsmSetTheirFirstBit : Prop :=
  decodeAcq 8#5 = .acqSdi ∧ decodeAcq 29#5 = .acqSsm ∧
  ∀ s : State,
    exec .acqSdi s = .next
      { s with
        sdi := s.sdi ||| (BitVec.ofBool s.line.pos).setWidth 2
        k := 9#5
        eLast := s.idx
        phase := .bit } ∧
    exec .acqSsm s = .next
      { s with
        ssm := s.ssm ||| (BitVec.ofBool s.line.pos).setWidth 2
        k := 30#5
        eLast := s.idx
        phase := .bit }

/-- 42_field_extractor.md R173, 45_resolver.md R240: the SDI event, then the resolution by MODE, only when DEC_EN. -/
def Obligations.AcqSdiLastResolvesTheWord : Prop :=
  decodeAcq 9#5 = .acqSdiLast ∧
  ∀ s : State,
    let v : BitVec 2 := s.sdi ||| ((BitVec.ofBool s.line.pos).setWidth 2 <<< 1)
    exec .acqSdiLast s = .next
      { s with
        sdi := v
        out := s.out ++ [.sdi s.fieldStart (s.idx + s.h) v]
        sel :=
          if s.cfg.decEn then
            (if s.cfg.mode then resolveTableKey (disp s.labelRaw) v s else resolveStaticKey (disp s.labelRaw) v s)
          else s.sel
        k := 10#5
        eLast := s.idx
        phase := .bit }

/-- 42_field_extractor.md R174. -/
def Obligations.AcqDataSetsItsBit : Prop :=
  ∀ (k : BitIndex) (s : State),
    (exec (.acqData k) s = .next
      { s with
        data := s.data ||| ((BitVec.ofBool s.line.pos).setWidth 19 <<< (k.toNat - 10))
        k := k + 1#5
        eLast := s.idx
        phase := .bit }) ∧
    (10 ≤ k.toNat ∧ k.toNat ≤ 27 → decodeAcq k = .acqData k)

/-- 42_field_extractor.md R175, 60_exceptions.md R266: the Data event, then at most one Value event, none while
`sel` is absent. -/
def Obligations.AcqDataLastEmitsAndScales : Prop :=
  decodeAcq 28#5 = .acqDataLast ∧
  ∀ s : State,
    let d : BitVec 19 := s.data ||| ((BitVec.ofBool s.line.pos).setWidth 19 <<< 18)
    let after (evs : List Event) : State :=
      { s with
        data := d
        out := s.out ++ .data s.fieldStart (s.idx + s.h) d :: evs
        k := 29#5
        eLast := s.idx
        phase := .bit }
    (s.sel = none → exec .acqDataLast s = .next (after [])) ∧
    (∀ e, s.sel = some e → e.signMode = 0#2 →
      exec .acqDataLast s = .next (after [valueEvent (unsignedStage e d) e s])) ∧
    (∀ e, s.sel = some e → e.signMode = 1#2 →
      exec .acqDataLast s = .next (after [valueEvent (signedStage e d) e s])) ∧
    (∀ e, s.sel = some e → e.signMode = 2#2 →
      exec .acqDataLast s = .next (after [valueEvent (twosStage e d) e s]))

/-- 42_field_extractor.md R177. -/
def Obligations.AcqSsmLastEmitsTheSsm : Prop :=
  decodeAcq 30#5 = .acqSsmLast ∧
  ∀ s : State,
    let v : BitVec 2 := s.ssm ||| ((BitVec.ofBool s.line.pos).setWidth 2 <<< 1)
    exec .acqSsmLast s = .next
      { s with
        ssm := v
        out := s.out ++ [.ssm s.fieldStart (s.idx + s.h) v]
        k := 31#5
        eLast := s.idx
        phase := .bit }

/-- 42_field_extractor.md R178: the Parity event, the verdict, the clearing of the word and the arming of the gap
detector; `eLast` is not written. -/
def Obligations.AcqParityEndsTheWord : Prop :=
  decodeAcq 31#5 = .acqParity ∧
  ∀ s : State,
    let b : Bit := BitVec.ofBool s.line.pos
    let ok : Bool :=
      (popcount s.labelRaw + popcount s.sdi + popcount s.data + popcount s.ssm + b.toNat) % 2 == 1
    exec .acqParity s = .next
      { s with
        out := s.out ++ [.parity s.fieldStart (s.idx + s.h) b, .verdict s.wordStart (s.idx + s.h) ok]
        labelRaw := 0#8
        sdi := 0#2
        data := 0#19
        ssm := 0#2
        par := 0#1
        k := 0#5
        sel := none
        phStart := none
        phStop := none
        phase := .sync
        runLen := if s.line.neg = false ∧ s.line.pos = false then 1 else 0 }

/-! ## Parity, resolver, scaler -/

/-- 44_parity.md R230. -/
def Obligations.ParityCheckEmitsTheVerdict : Prop :=
  ∀ s : State, exec .parityCheck s = .next
    { s with
      out := s.out ++ [.verdict s.wordStart (s.idx + s.h)
        ((popcount s.labelRaw + popcount s.sdi + popcount s.data + popcount s.ssm + s.par.toNat) % 2 == 1)] }

/-- 44_parity.md R231: the verdict is the parity of the whole word value, and the XOR of its 32 bits. -/
def Obligations.ParityIsThatOfTheWordValue : Prop :=
  ∀ (labelRaw : BitVec 8) (sdi : BitVec 2) (data : BitVec 19) (ssm : BitVec 2) (par : Bit),
    let w : BitVec 32 := wordValue labelRaw sdi data ssm par
    w.toNat = labelRaw.toNat + sdi.toNat * 2 ^ 8 + data.toNat * 2 ^ 10 + ssm.toNat * 2 ^ 29 + par.toNat * 2 ^ 31 ∧
    popcount labelRaw + popcount sdi + popcount data + popcount ssm + par.toNat = popcount w ∧
    (popcount w % 2 == 1) = (List.range 32).foldl (fun acc j => acc ^^ w.getLsbD j) false

/-- 45_resolver.md R241: the static entry on its key, or absent. That the unit run alone delivers into
`sel` is the model's choice (log entry 1); R240 gives it no effect but the entry it returns. -/
def Obligations.ResolveStaticMatchesItsKey : Prop :=
  ∀ s : State, exec .resolveStatic s = .next
    { s with
      sel :=
        if disp s.labelRaw = s.cfg.stAddr.toNat ∧ (s.cfg.stIdent = 4#3 ∨ s.cfg.stIdent.toNat = s.sdi.toNat) then
          some
            { name := s.cfg.stName
              address := s.cfg.stAddr
              identifier := s.cfg.stIdent
              firstBit := s.cfg.stFirst
              lastBit := s.cfg.stLast
              signMode := s.cfg.stSmode
              lsbWeight := s.stWeight }
        else none }

/-- 45_resolver.md R242: the entry at the lowest index with the key, or absent when none has it; `LutEntry.entry`
keeps every field and widens the identifier (30_encoding.md R95, log entry 12). That the unit run alone delivers into
`sel` is the model's choice (log entry 1); R240 gives it no effect but the entry it returns. -/
def Obligations.ResolveTableTakesTheFirstMatch : Prop :=
  ∀ s : State, ∃ found, exec .resolveTable s = .next { s with sel := found } ∧
    let matchesAt (j : Nat) : Prop :=
      ∃ e, s.lutRead j = some e ∧ e.address.toNat = disp s.labelRaw ∧ e.identifier = s.sdi
    ((found = none ∧ ∀ j, ¬ matchesAt j) ∨
      ∃ j, matchesAt j ∧ (∀ m, m < j → ¬ matchesAt m) ∧ found = (s.lutRead j).map LutEntry.entry)

/-- 43_value_scaler.md R201, R204, R208: SCALE_UNSIGNED on a legal entry. That the unit run alone
does nothing while `sel` is absent is the model's choice (log entry 1): R175 never invokes it then. -/
def Obligations.ScaleUnsignedEmitsTheFieldTimesTheWeight : Prop :=
  (∀ s : State, s.sel = none → exec .scaleUnsigned s = .next s) ∧
  ∀ (s : State) (e : Entry) (p : Nat), s.sel = some e → e.legal = true → s.phStart = some p →
    let field : Nat := s.data.toNat / 2 ^ (e.f - 11) % 2 ^ (e.l - e.f + 2)
    exec .scaleUnsigned s = .next
      { s with
        out := s.out ++ [.value p (s.phStop.getD (s.idx + s.h)) e.name field false
          (F64.mul (F64.ofNat field) e.lsbWeight)] }

/-- 43_value_scaler.md R202, R206, R208: SCALE_SIGNED is sign-magnitude over the window, the sign bit being data bit
`l + 1`. That the unit run alone does nothing while `sel` is absent is the model's choice (log
entry 1): R175 never invokes it then. -/
def Obligations.ScaleSignedIsSignMagnitude : Prop :=
  (∀ s : State, s.sel = none → exec .scaleSigned s = .next s) ∧
  ∀ (s : State) (e : Entry) (p : Nat), s.sel = some e → e.legal = true → s.phStart = some p →
    let width : Nat := e.l - e.f + 1
    let field : Nat := s.data.toNat / 2 ^ (e.f - 11) % 2 ^ (width + 1)
    let mag : Nat := field % 2 ^ width
    exec .scaleSigned s = .next
      { s with
        out := s.out ++ [
          if field < 2 ^ width then
            .value p (s.phStop.getD (s.idx + s.h)) e.name mag false (F64.mul (F64.ofNat mag) e.lsbWeight)
          else
            .value p (s.phStop.getD (s.idx + s.h)) e.name (-(mag : Int)) true
              (F64.mul (F64.ofNat mag) (F64.fneg e.lsbWeight))] }

/-- 43_value_scaler.md R202, R205, R208: SCALE_TWOS is two's complement of the `width + 1`-bit field.
That the unit run alone does nothing while `sel` is absent is the model's choice (log
entry 1): R175 never invokes it then. -/
def Obligations.ScaleTwosIsTwosComplement : Prop :=
  (∀ s : State, s.sel = none → exec .scaleTwos s = .next s) ∧
  ∀ (s : State) (e : Entry) (p : Nat), s.sel = some e → e.legal = true → s.phStart = some p →
    let width : Nat := e.l - e.f + 1
    let field : Nat := s.data.toNat / 2 ^ (e.f - 11) % 2 ^ (width + 1)
    exec .scaleTwos s = .next
      { s with
        out := s.out ++ [
          if field < 2 ^ width then
            .value p (s.phStop.getD (s.idx + s.h)) e.name field false (F64.mul (F64.ofNat field) e.lsbWeight)
          else
            .value p (s.phStop.getD (s.idx + s.h)) e.name ((field : Int) - 2 ^ (width + 1)) true
              (F64.mul (F64.ofNat (2 ^ (width + 1) - field)) (F64.fneg e.lsbWeight))] }

/-- 43_value_scaler.md R211: the Unsigned count recovers the window, and a window up to data bit 29 is never negative. -/
def Obligations.UnsignedCountRecoversTheWindow : Prop :=
  (∀ (e : Entry) (data : BitVec 19), e.legal = true →
    (unsignedStage e data).count % (2 ^ (e.l - e.f + 1) : Int) =
      ((data.toNat / 2 ^ (e.f - 11) % 2 ^ (e.l - e.f + 1) : Nat) : Int)) ∧
  (∀ (e : Entry) (data : BitVec 19), e.legal = true → e.l = 29 →
    (signedStage e data).neg = false ∧ (twosStage e data).neg = false)

/-- 43_value_scaler.md R211: with the sign bit set the signed value is the negation of the value with it clear, where
the product is a number. (What sign a NaN product has is free, log entry 8.) -/
def Obligations.SignedValuesAreSymmetric : Prop :=
  ∀ (e : Entry) (d d' : BitVec 19), e.legal = true →
    e.field d' < 2 ^ e.width → e.field d = e.field d' + 2 ^ e.width →
    F64.isNaN ((signedStage e d').value e.lsbWeight) = false →
    (signedStage e d').neg = false ∧ (signedStage e d).neg = true ∧
    (signedStage e d).mag = (signedStage e d').mag ∧
    (signedStage e d).value e.lsbWeight = F64.fneg ((signedStage e d').value e.lsbWeight)

/-! ## Numerics -/

/-- 00_scope.md R5, 43_value_scaler.md R209: a finite product is a binary64 datum nearest to the exact product. -/
def Obligations.ProductIsNearestBinary64 : Prop :=
  ∀ a b c : Binary64, F64.isFinite a = true → F64.isFinite b = true → F64.isFinite (F64.mul a b) = true →
    F64.isFinite c = true →
    |F64.toRat (F64.mul a b) - F64.toRat a * F64.toRat b| ≤ |F64.toRat c - F64.toRat a * F64.toRat b|

/-- 00_scope.md R5, 43_value_scaler.md R209: between two equally near data the one with the even significand is taken,
and the product overflows to infinity from the midpoint above the largest finite datum on. -/
def Obligations.ProductTiesToEvenAndOverflows : Prop :=
  (∀ a b c : Binary64, F64.isFinite a = true → F64.isFinite b = true → F64.isFinite (F64.mul a b) = true →
    F64.isFinite c = true → F64.toRat c ≠ F64.toRat (F64.mul a b) →
    |F64.toRat (F64.mul a b) - F64.toRat a * F64.toRat b| = |F64.toRat c - F64.toRat a * F64.toRat b| →
    F64.sig (F64.mul a b) % 2 = 0) ∧
  (∀ a b : Binary64, F64.isFinite a = true → F64.isFinite b = true →
    (F64.isInf (F64.mul a b) = true ↔ (2 : ℚ) ^ 1024 - (2 : ℚ) ^ 970 ≤ |F64.toRat a * F64.toRat b|))

/-- 43_value_scaler.md R209, 93_implementation_defined.md U8: NaN operands and infinity times zero give a quiet NaN,
infinity times a nonzero gives infinity, and every product that is not a NaN has the sign rule of IEEE 754, zero
included. That the NaN's sign and payload are free values is the model's choice (log entry 8). -/
def Obligations.ProductOfSpecialOperands : Prop :=
  ∀ a b : Binary64,
    (F64.isNaN (F64.mul a b) = true ↔
      F64.isNaN a = true ∨ F64.isNaN b = true ∨ (F64.isInf a = true ∧ F64.isZero b = true) ∨
        (F64.isZero a = true ∧ F64.isInf b = true)) ∧
    (F64.isNaN (F64.mul a b) = true → (F64.mul a b).getLsbD 51 = true) ∧
    (F64.isInf a = true → F64.isNaN b = false → F64.isZero b = false → F64.isInf (F64.mul a b) = true) ∧
    (F64.isInf b = true → F64.isNaN a = false → F64.isZero a = false → F64.isInf (F64.mul a b) = true) ∧
    (F64.isFinite a = true → F64.isFinite b = true → F64.isZero a = true ∨ F64.isZero b = true →
      F64.isZero (F64.mul a b) = true) ∧
    (F64.isNaN (F64.mul a b) = false → F64.sign (F64.mul a b) = (F64.sign a != F64.sign b))

/-- 43_value_scaler.md R209: `f64(n)` is exact for the magnitudes of the block. -/
def Obligations.IntegerConversionIsExact : Prop :=
  ∀ n : Nat, n < 2 ^ 53 → F64.isFinite (F64.ofNat n) = true ∧ F64.toRat (F64.ofNat n) = n

/-- 43_value_scaler.md R210: the MSB weight is exact while the quotient stays in the normal range. -/
def Obligations.MsbWeightIsExactInTheNormalRange : Prop :=
  ∀ (a : Binary64) (n : Nat), F64.isFinite a = true → n < F64.expField a →
    F64.isFinite (F64.divPow2 a n) = true ∧ F64.toRat (F64.divPow2 a n) = F64.toRat a / 2 ^ n

/-! ## Reset, configuration, faults -/

/-- 70_reset_and_hazards.md R290, 60_exceptions.md R261, R262, 10_state.md R26, R51: the deassertion of `rst` with a
well-formed configuration latches it, sets every register, computes the static weight of static mode and runs the
reset checks. -/
def Obligations.ResetSequenceStartsTheSession : Prop :=
  ∀ (s : State) (rest : List HostInput), s.rst = true → s.host = .rst false :: rest → s.cfgIn.check = none →
    let c := s.cfgIn
    let code : BitVec 2 :=
      if c.srValid = false then 1#2
      else if c.decEn = true ∧ c.mode = true ∧ c.tblPresent = false then 2#2
      else 0#2
    ∃ w : Binary64,
      (c.decEn = true → c.mode = false →
        w = if c.stWsel then F64.divPow2 c.stMsb (c.stLast.toNat - c.stFirst.toNat) else c.stLsb) ∧
      step s = .next
        { rst := false, line := s.line, cfgIn := c, cfg := c, stWeight := w, idxWidth := s.idxWidth,
          cntWidth := s.cntWidth, phase := if code = 0#2 then .trRise else .fault, k := 0#5, labelRaw := 0#8,
          sdi := 0#2, data := 0#19, ssm := 0#2, par := 0#1, prev := none, idx := 0, sR := 0, h := 0, runLen := 0,
          eLast := 0, wordStart := 0, fieldStart := 0, sel := none, phStart := none, phStop := none,
          faultCode := code, out := [], stream := [], earlier := s.earlier ++ s.stream, host := rest }

/-- 10_state.md R51: the registers right after reset; and the model's reset state is what the reset sequence leaves for
the configuration it names (that configuration is the model's choice, log entry 4). -/
def Obligations.ResetStateHoldsTheResetValues : Prop :=
  State.reset.registersAtReset ∧ State.reset.phase = .trRise ∧ State.reset.faultCode = 0#2 ∧
  step { State.reset with rst := true, host := [.rst false] } = .next State.reset

/-- 10_state.md R34: the configuration is refused exactly when a named check fails, each check spelled out. -/
def Obligations.IllFormedConfigurationIsRefused : Prop :=
  (∀ c : Cfg, c.check = none ↔
    c.ctrl.toNat < 2 ^ 5 ∧
    (c.srValid = true → F64.isFinite c.sampleRate = true ∧ 0 < F64.toRat c.sampleRate) ∧
    (c.decEn = true ∧ c.mode = false →
      (∃ d2 d1 d0, d2 ≤ 3 ∧ d1 ≤ 7 ∧ d0 ≤ 7 ∧ c.stAddr.toNat = d2 * 100 + d1 * 10 + d0) ∧ c.stIdent.toNat ≤ 4 ∧
      11 ≤ c.stFirst.toNat ∧ c.stFirst.toNat ≤ c.stLast.toNat ∧ c.stLast.toNat ≤ 29 ∧ c.stSmode.toNat ≤ 2) ∧
    (c.decEn = true ∧ c.mode = true ∧ c.tblPresent = true → ∀ e ∈ c.lut,
      (∃ d2 d1 d0, d2 ≤ 3 ∧ d1 ≤ 7 ∧ d0 ≤ 7 ∧ e.address.toNat = d2 * 100 + d1 * 10 + d0) ∧ e.identifier.toNat ≤ 3 ∧
      11 ≤ e.firstBit.toNat ∧ e.firstBit.toNat ≤ e.lastBit.toNat ∧ e.lastBit.toNat ≤ 29 ∧ e.signMode.toNat ≤ 2)) ∧
  (∀ (s : State) (rest : List HostInput) (failed : ConfigCheck),
    s.rst = true → s.host = .rst false :: rest → s.cfgIn.check = some failed →
    step s = .refused (.illFormedConfig failed))

/-- 20_memory.md R68: a change of the configuration inputs while `rst` is deasserted is refused; while it is asserted
it is the next session's configuration. That driving the configuration already there is no change and is accepted
(second clause) is the model's reading (log entry 20): R68 does not speak of it. -/
def Obligations.ConfigurationChangeIsRefused : Prop :=
  ∀ (s : State) (c : Cfg) (rest : List HostInput), s.host = .config c :: rest →
    (s.rst = false → c ≠ s.cfgIn → step s = .refused .configChanged) ∧
    (s.rst = false → c = s.cfgIn → step s = .next { s with host := rest, out := [] }) ∧
    (s.rst = true → step s = .next { s with host := rest, out := [], cfgIn := c })

/-- 70_reset_and_hazards.md R290, R292: `rst` may be asserted at any time; while it is asserted no sample is consumed
and no event is emitted. That the registers keep their values until the deassertion is the model's choice
(log entry 3). -/
def Obligations.AssertedResetConsumesNothing : Prop :=
  ∀ (s : State) (rest : List HostInput),
    (s.host = .rst true :: rest → step s = .next { s with host := rest, out := [], rst := true }) ∧
    (∀ x, s.host = .sample x :: rest → s.rst = true →
      step s = .next { s with host := rest, out := [], line := x })

/-- 10_state.md R20: no operation writes a configuration register, the LUT, the inputs or the static weight. -/
def Obligations.ConfigurationIsReadOnly : Prop :=
  (∀ (i : Instr) (s t : State), exec i s = .next t →
    t.cfg = s.cfg ∧ t.stWeight = s.stWeight ∧ t.cfgIn = s.cfgIn ∧ t.rst = s.rst ∧ t.idxWidth = s.idxWidth ∧
    t.cntWidth = s.cntWidth) ∧
  (∀ s t : State, step s = .next t → t.cfg = s.cfg ∨ (s.rst = true ∧ t.rst = false ∧ t.cfg = s.cfgIn))

/-- 60_exceptions.md R264: no operation raises a fault and no state makes the machine stop with one; a sample leaves
`faultCode` as it is and takes no running session to FAULT. -/
def Obligations.NoFaultIsRaisedAfterReset : Prop :=
  (∀ (s : State) (f : Fault), step s ≠ .fault f) ∧
  (∀ (i : Instr) (s t : State), exec i s = .next t → t.faultCode = s.faultCode) ∧
  (∀ (s t : State) (x : Sample) (rest : List HostInput),
    s.host = .sample x :: rest → s.phase ≠ .fault → step s = .next t → t.phase ≠ .fault)

/-- 00_scope.md R2, R6, 70_reset_and_hazards.md R299: a step after which `idx` or the gap counter would pass the
physical width the model was given is refused. That this is checked at the end of the step is the model's choice (log
entry 7). -/
def Obligations.WidthOverflowIsRefused : Prop :=
  (∀ (s : State) (n : Nat) (k : BitIndex), s.idxWidth = some n → 2 ^ n ≤ s.idx + 1 →
    ∀ i, i ∈ [Instr.trWait, .trEdge, .trHold, .trMeasure, .syncLow, .syncBreak, .syncShort, .syncFire, .bitWait,
        .bitEdge k, .bitTimeout k] → exec i s = .refused .widthExceeded) ∧
  (∀ (s : State) (n : Nat), s.cntWidth = some n → 2 ^ n ≤ s.runLen + 1 → exec .syncLow s = .refused .widthExceeded) ∧
  (∀ (i : Instr) (s : State), s.idxWidth = none → s.cntWidth = none → ∃ t, exec i s = .next t)

/-! ## Noninterference -/

/-- 10_state.md R22: with DEC_EN = 0 the resolver fields, the LUT and the static weight influence nothing, no entry is
resolved and no value is emitted. -/
def Obligations.ResolverFieldsUnreadWithoutDecoding : Prop :=
  ∀ (i : Instr) (s : State) (c : Cfg) (w : Binary64),
    i ≠ .resolveStatic → i ≠ .resolveTable → s.sel = none → s.cfg.decEn = false → c.decEn = false →
    (∀ t, exec i s = .next t →
      exec i { s with cfg := c, stWeight := w } = .next { t with cfg := c, stWeight := w } ∧ t.sel = none ∧
      ∃ more, t.out = s.out ++ more ∧ ∀ ev ∈ more, ev.kind ≠ 7) ∧
    (∀ r, exec i s = .refused r → exec i { s with cfg := c, stWeight := w } = .refused r)

/-- 10_state.md R21: the value of SAMPLE_RATE enters no operation. -/
def Obligations.SampleRateEntersNoOperation : Prop :=
  ∀ (i : Instr) (s t : State) (r : Binary64), exec i s = .next t →
    exec i { s with cfg := { s.cfg with sampleRate := r } } = .next { t with cfg := { s.cfg with sampleRate := r } }

/-! ## Invariants and headline results -/

/-- 10_state.md R51: the invariant and the order of the event stream hold right after reset. The clauses about the
configuration rest on the one `State.reset` names, which is the model's choice (log entry 4, unsafe). -/
def Obligations.ResetMeetsTheInvariant : Prop := State.reset.StreamInv

/-- The invariant of the machine (Safety.lean, each clause citing its rule) is kept by every step from every state. -/
def Obligations.StepKeepsTheInvariant : Prop :=
  ∀ s t : State, s.Inv → step s = .next t → t.Inv

/-- 20_memory.md R71: events of one kind are emitted with strictly increasing `start`, kept by every step. -/
def Obligations.StepKeepsTheStreamOrdered : Prop :=
  ∀ s t : State, s.StreamInv → step s = .next t → t.StreamInv ∧ orderedPerKind t.stream

/-- 42_field_extractor.md R160, R161, R163: whatever the samples, within `3h` of them a bit is acquired. -/
def Obligations.BitWaitIsBounded : Prop :=
  ∀ (s : State) (xs : List Sample) (rest : List HostInput),
    s.Inv → s.phase = .bit → s.rst = false → s.idxWidth = none → s.cntWidth = none →
    xs.length = 3 * s.h → s.host = supply xs ++ rest →
    ∃ n t, 1 ≤ n ∧ n ≤ 3 * s.h ∧ Host.Core.run core n s = .next t ∧ t.idx = s.idx + n ∧ t.k = s.k + 1#5 ∧
      (s.k = 31#5 → t.phase = .sync) ∧ (s.k ≠ 31#5 → t.phase = .bit ∧ t.eLast + 1 = t.idx)

/-- 42_field_extractor.md R182, 30_encoding.md R87: an ideal word after an accepted gap is decoded to exactly its
fields, spans and verdict, whatever the configuration (a `Value` may come beside them), and the machine is back in
the synchronizer. -/
def Obligations.IdealWordIsDecoded : Prop :=
  ∀ (s : State) (w : BitVec 32) (rest : List HostInput),
    s.Inv → s.phase = .sync → s.prev = some Sample.N → 6 * s.h ≤ s.runLen → s.rst = false →
    s.idxWidth = none → s.cntWidth = none → s.host = supply (idealWord s.h w) ++ rest →
    ∃ t, Host.Core.run core (64 * s.h) s = .next t ∧ t.phase = .sync ∧ t.h = s.h ∧ t.idx = s.idx + 64 * s.h ∧
      t.host = rest ∧ t.cfg = s.cfg ∧
      withoutValues t.stream = withoutValues s.stream ++ idealWordEvents s.idx s.h w

/-- 20_memory.md R65, R67, 10_state.md R37: the events of a step leave the port together, after those of the steps
before, and nothing already emitted is taken back within a session. That a reset moves the session's stream to `earlier`
is the model's choice (log entry 22). -/
def Obligations.StreamOnlyGrows : Prop :=
  ∀ s t : State, step s = .next t → (s.host = [] ∧ t = s) ∨ t.stream = s.stream ++ t.out ∨
    (s.rst = true ∧ t.rst = false ∧ t.stream = [] ∧ t.out = [] ∧ t.earlier = s.earlier ++ s.stream)
end

