-- ==== Sys2Proof/Laws/State.lean ====
section
/-! SUPPORT. What each shared update leaves in each register: one lemma per field per update, so that no later proof
unfolds a record update. -/

namespace Sys2Proof.Machine

/-! ## emit -/

@[simp] theorem emit_rst (ev : Event) (s : State) : (emit ev s).rst = s.rst := rfl
@[simp] theorem emit_line (ev : Event) (s : State) : (emit ev s).line = s.line := rfl
@[simp] theorem emit_cfgIn (ev : Event) (s : State) : (emit ev s).cfgIn = s.cfgIn := rfl
@[simp] theorem emit_cfg (ev : Event) (s : State) : (emit ev s).cfg = s.cfg := rfl
@[simp] theorem emit_stWeight (ev : Event) (s : State) : (emit ev s).stWeight = s.stWeight := rfl
@[simp] theorem emit_idxWidth (ev : Event) (s : State) : (emit ev s).idxWidth = s.idxWidth := rfl
@[simp] theorem emit_cntWidth (ev : Event) (s : State) : (emit ev s).cntWidth = s.cntWidth := rfl
@[simp] theorem emit_phase (ev : Event) (s : State) : (emit ev s).phase = s.phase := rfl
@[simp] theorem emit_k (ev : Event) (s : State) : (emit ev s).k = s.k := rfl
@[simp] theorem emit_labelRaw (ev : Event) (s : State) : (emit ev s).labelRaw = s.labelRaw := rfl
@[simp] theorem emit_sdi (ev : Event) (s : State) : (emit ev s).sdi = s.sdi := rfl
@[simp] theorem emit_data (ev : Event) (s : State) : (emit ev s).data = s.data := rfl
@[simp] theorem emit_ssm (ev : Event) (s : State) : (emit ev s).ssm = s.ssm := rfl
@[simp] theorem emit_par (ev : Event) (s : State) : (emit ev s).par = s.par := rfl
@[simp] theorem emit_prev (ev : Event) (s : State) : (emit ev s).prev = s.prev := rfl
@[simp] theorem emit_idx (ev : Event) (s : State) : (emit ev s).idx = s.idx := rfl
@[simp] theorem emit_sR (ev : Event) (s : State) : (emit ev s).sR = s.sR := rfl
@[simp] theorem emit_h (ev : Event) (s : State) : (emit ev s).h = s.h := rfl
@[simp] theorem emit_runLen (ev : Event) (s : State) : (emit ev s).runLen = s.runLen := rfl
@[simp] theorem emit_eLast (ev : Event) (s : State) : (emit ev s).eLast = s.eLast := rfl
@[simp] theorem emit_wordStart (ev : Event) (s : State) : (emit ev s).wordStart = s.wordStart := rfl
@[simp] theorem emit_fieldStart (ev : Event) (s : State) : (emit ev s).fieldStart = s.fieldStart := rfl
@[simp] theorem emit_sel (ev : Event) (s : State) : (emit ev s).sel = s.sel := rfl
@[simp] theorem emit_phStart (ev : Event) (s : State) : (emit ev s).phStart = s.phStart := rfl
@[simp] theorem emit_phStop (ev : Event) (s : State) : (emit ev s).phStop = s.phStop := rfl
@[simp] theorem emit_faultCode (ev : Event) (s : State) : (emit ev s).faultCode = s.faultCode := rfl
@[simp] theorem emit_out (ev : Event) (s : State) : (emit ev s).out = s.out ++ [ev] := rfl
@[simp] theorem emit_stream (ev : Event) (s : State) : (emit ev s).stream = s.stream := rfl
@[simp] theorem emit_earlier (ev : Event) (s : State) : (emit ev s).earlier = s.earlier := rfl
@[simp] theorem emit_host (ev : Event) (s : State) : (emit ev s).host = s.host := rfl

/-! ## consumeSample -/

@[simp] theorem consumeSample_rst (s : State) : (consumeSample s).rst = s.rst := rfl
@[simp] theorem consumeSample_line (s : State) : (consumeSample s).line = s.line := rfl
@[simp] theorem consumeSample_cfgIn (s : State) : (consumeSample s).cfgIn = s.cfgIn := rfl
@[simp] theorem consumeSample_cfg (s : State) : (consumeSample s).cfg = s.cfg := rfl
@[simp] theorem consumeSample_stWeight (s : State) : (consumeSample s).stWeight = s.stWeight := rfl
@[simp] theorem consumeSample_idxWidth (s : State) : (consumeSample s).idxWidth = s.idxWidth := rfl
@[simp] theorem consumeSample_cntWidth (s : State) : (consumeSample s).cntWidth = s.cntWidth := rfl
@[simp] theorem consumeSample_phase (s : State) : (consumeSample s).phase = s.phase := rfl
@[simp] theorem consumeSample_k (s : State) : (consumeSample s).k = s.k := rfl
@[simp] theorem consumeSample_labelRaw (s : State) : (consumeSample s).labelRaw = s.labelRaw := rfl
@[simp] theorem consumeSample_sdi (s : State) : (consumeSample s).sdi = s.sdi := rfl
@[simp] theorem consumeSample_data (s : State) : (consumeSample s).data = s.data := rfl
@[simp] theorem consumeSample_ssm (s : State) : (consumeSample s).ssm = s.ssm := rfl
@[simp] theorem consumeSample_par (s : State) : (consumeSample s).par = s.par := rfl
@[simp] theorem consumeSample_prev (s : State) : (consumeSample s).prev = some s.line := rfl
@[simp] theorem consumeSample_idx (s : State) : (consumeSample s).idx = s.idx + 1 := rfl
@[simp] theorem consumeSample_sR (s : State) : (consumeSample s).sR = s.sR := rfl
@[simp] theorem consumeSample_h (s : State) : (consumeSample s).h = s.h := rfl
@[simp] theorem consumeSample_runLen (s : State) : (consumeSample s).runLen = s.runLen := rfl
@[simp] theorem consumeSample_eLast (s : State) : (consumeSample s).eLast = s.eLast := rfl
@[simp] theorem consumeSample_wordStart (s : State) : (consumeSample s).wordStart = s.wordStart := rfl
@[simp] theorem consumeSample_fieldStart (s : State) : (consumeSample s).fieldStart = s.fieldStart := rfl
@[simp] theorem consumeSample_sel (s : State) : (consumeSample s).sel = s.sel := rfl
@[simp] theorem consumeSample_phStart (s : State) : (consumeSample s).phStart = s.phStart := rfl
@[simp] theorem consumeSample_phStop (s : State) : (consumeSample s).phStop = s.phStop := rfl
@[simp] theorem consumeSample_faultCode (s : State) : (consumeSample s).faultCode = s.faultCode := rfl
@[simp] theorem consumeSample_out (s : State) : (consumeSample s).out = s.out := rfl
@[simp] theorem consumeSample_stream (s : State) : (consumeSample s).stream = s.stream := rfl
@[simp] theorem consumeSample_earlier (s : State) : (consumeSample s).earlier = s.earlier := rfl
@[simp] theorem consumeSample_host (s : State) : (consumeSample s).host = s.host := rfl

/-! ## enterSync -/

@[simp] theorem enterSync_rst (s : State) : (enterSync s).rst = s.rst := rfl
@[simp] theorem enterSync_line (s : State) : (enterSync s).line = s.line := rfl
@[simp] theorem enterSync_cfgIn (s : State) : (enterSync s).cfgIn = s.cfgIn := rfl
@[simp] theorem enterSync_cfg (s : State) : (enterSync s).cfg = s.cfg := rfl
@[simp] theorem enterSync_stWeight (s : State) : (enterSync s).stWeight = s.stWeight := rfl
@[simp] theorem enterSync_idxWidth (s : State) : (enterSync s).idxWidth = s.idxWidth := rfl
@[simp] theorem enterSync_cntWidth (s : State) : (enterSync s).cntWidth = s.cntWidth := rfl
@[simp] theorem enterSync_phase (s : State) : (enterSync s).phase = .sync := rfl
@[simp] theorem enterSync_k (s : State) : (enterSync s).k = s.k := rfl
@[simp] theorem enterSync_labelRaw (s : State) : (enterSync s).labelRaw = s.labelRaw := rfl
@[simp] theorem enterSync_sdi (s : State) : (enterSync s).sdi = s.sdi := rfl
@[simp] theorem enterSync_data (s : State) : (enterSync s).data = s.data := rfl
@[simp] theorem enterSync_ssm (s : State) : (enterSync s).ssm = s.ssm := rfl
@[simp] theorem enterSync_par (s : State) : (enterSync s).par = s.par := rfl
@[simp] theorem enterSync_prev (s : State) : (enterSync s).prev = s.prev := rfl
@[simp] theorem enterSync_idx (s : State) : (enterSync s).idx = s.idx := rfl
@[simp] theorem enterSync_sR (s : State) : (enterSync s).sR = s.sR := rfl
@[simp] theorem enterSync_h (s : State) : (enterSync s).h = s.h := rfl
@[simp] theorem enterSync_runLen (s : State) : (enterSync s).runLen = if s.low then 1 else 0 := rfl
@[simp] theorem enterSync_eLast (s : State) : (enterSync s).eLast = s.eLast := rfl
@[simp] theorem enterSync_wordStart (s : State) : (enterSync s).wordStart = s.wordStart := rfl
@[simp] theorem enterSync_fieldStart (s : State) : (enterSync s).fieldStart = s.fieldStart := rfl
@[simp] theorem enterSync_sel (s : State) : (enterSync s).sel = s.sel := rfl
@[simp] theorem enterSync_phStart (s : State) : (enterSync s).phStart = s.phStart := rfl
@[simp] theorem enterSync_phStop (s : State) : (enterSync s).phStop = s.phStop := rfl
@[simp] theorem enterSync_faultCode (s : State) : (enterSync s).faultCode = s.faultCode := rfl
@[simp] theorem enterSync_out (s : State) : (enterSync s).out = s.out := rfl
@[simp] theorem enterSync_stream (s : State) : (enterSync s).stream = s.stream := rfl
@[simp] theorem enterSync_earlier (s : State) : (enterSync s).earlier = s.earlier := rfl
@[simp] theorem enterSync_host (s : State) : (enterSync s).host = s.host := rfl

/-! ## nextBit -/

@[simp] theorem nextBit_rst (j : BitIndex) (s : State) : (nextBit j s).rst = s.rst := rfl
@[simp] theorem nextBit_line (j : BitIndex) (s : State) : (nextBit j s).line = s.line := rfl
@[simp] theorem nextBit_cfgIn (j : BitIndex) (s : State) : (nextBit j s).cfgIn = s.cfgIn := rfl
@[simp] theorem nextBit_cfg (j : BitIndex) (s : State) : (nextBit j s).cfg = s.cfg := rfl
@[simp] theorem nextBit_stWeight (j : BitIndex) (s : State) : (nextBit j s).stWeight = s.stWeight := rfl
@[simp] theorem nextBit_idxWidth (j : BitIndex) (s : State) : (nextBit j s).idxWidth = s.idxWidth := rfl
@[simp] theorem nextBit_cntWidth (j : BitIndex) (s : State) : (nextBit j s).cntWidth = s.cntWidth := rfl
@[simp] theorem nextBit_phase (j : BitIndex) (s : State) : (nextBit j s).phase = .bit := rfl
@[simp] theorem nextBit_k (j : BitIndex) (s : State) : (nextBit j s).k = j + 1#5 := rfl
@[simp] theorem nextBit_labelRaw (j : BitIndex) (s : State) : (nextBit j s).labelRaw = s.labelRaw := rfl
@[simp] theorem nextBit_sdi (j : BitIndex) (s : State) : (nextBit j s).sdi = s.sdi := rfl
@[simp] theorem nextBit_data (j : BitIndex) (s : State) : (nextBit j s).data = s.data := rfl
@[simp] theorem nextBit_ssm (j : BitIndex) (s : State) : (nextBit j s).ssm = s.ssm := rfl
@[simp] theorem nextBit_par (j : BitIndex) (s : State) : (nextBit j s).par = s.par := rfl
@[simp] theorem nextBit_prev (j : BitIndex) (s : State) : (nextBit j s).prev = s.prev := rfl
@[simp] theorem nextBit_idx (j : BitIndex) (s : State) : (nextBit j s).idx = s.idx := rfl
@[simp] theorem nextBit_sR (j : BitIndex) (s : State) : (nextBit j s).sR = s.sR := rfl
@[simp] theorem nextBit_h (j : BitIndex) (s : State) : (nextBit j s).h = s.h := rfl
@[simp] theorem nextBit_runLen (j : BitIndex) (s : State) : (nextBit j s).runLen = s.runLen := rfl
@[simp] theorem nextBit_eLast (j : BitIndex) (s : State) : (nextBit j s).eLast = s.idx := rfl
@[simp] theorem nextBit_wordStart (j : BitIndex) (s : State) : (nextBit j s).wordStart = s.wordStart := rfl
@[simp] theorem nextBit_fieldStart (j : BitIndex) (s : State) : (nextBit j s).fieldStart = s.fieldStart := rfl
@[simp] theorem nextBit_sel (j : BitIndex) (s : State) : (nextBit j s).sel = s.sel := rfl
@[simp] theorem nextBit_phStart (j : BitIndex) (s : State) : (nextBit j s).phStart = s.phStart := rfl
@[simp] theorem nextBit_phStop (j : BitIndex) (s : State) : (nextBit j s).phStop = s.phStop := rfl
@[simp] theorem nextBit_faultCode (j : BitIndex) (s : State) : (nextBit j s).faultCode = s.faultCode := rfl
@[simp] theorem nextBit_out (j : BitIndex) (s : State) : (nextBit j s).out = s.out := rfl
@[simp] theorem nextBit_stream (j : BitIndex) (s : State) : (nextBit j s).stream = s.stream := rfl
@[simp] theorem nextBit_earlier (j : BitIndex) (s : State) : (nextBit j s).earlier = s.earlier := rfl
@[simp] theorem nextBit_host (j : BitIndex) (s : State) : (nextBit j s).host = s.host := rfl

/-! ## raiseFault -/

@[simp] theorem raiseFault_rst (code : BitVec 2) (s : State) : (raiseFault code s).rst = s.rst := rfl
@[simp] theorem raiseFault_line (code : BitVec 2) (s : State) : (raiseFault code s).line = s.line := rfl
@[simp] theorem raiseFault_cfgIn (code : BitVec 2) (s : State) : (raiseFault code s).cfgIn = s.cfgIn := rfl
@[simp] theorem raiseFault_cfg (code : BitVec 2) (s : State) : (raiseFault code s).cfg = s.cfg := rfl
@[simp] theorem raiseFault_stWeight (code : BitVec 2) (s : State) : (raiseFault code s).stWeight = s.stWeight := rfl
@[simp] theorem raiseFault_idxWidth (code : BitVec 2) (s : State) : (raiseFault code s).idxWidth = s.idxWidth := rfl
@[simp] theorem raiseFault_cntWidth (code : BitVec 2) (s : State) : (raiseFault code s).cntWidth = s.cntWidth := rfl
@[simp] theorem raiseFault_phase (code : BitVec 2) (s : State) : (raiseFault code s).phase = .fault := rfl
@[simp] theorem raiseFault_k (code : BitVec 2) (s : State) : (raiseFault code s).k = s.k := rfl
@[simp] theorem raiseFault_labelRaw (code : BitVec 2) (s : State) : (raiseFault code s).labelRaw = s.labelRaw := rfl
@[simp] theorem raiseFault_sdi (code : BitVec 2) (s : State) : (raiseFault code s).sdi = s.sdi := rfl
@[simp] theorem raiseFault_data (code : BitVec 2) (s : State) : (raiseFault code s).data = s.data := rfl
@[simp] theorem raiseFault_ssm (code : BitVec 2) (s : State) : (raiseFault code s).ssm = s.ssm := rfl
@[simp] theorem raiseFault_par (code : BitVec 2) (s : State) : (raiseFault code s).par = s.par := rfl
@[simp] theorem raiseFault_prev (code : BitVec 2) (s : State) : (raiseFault code s).prev = s.prev := rfl
@[simp] theorem raiseFault_idx (code : BitVec 2) (s : State) : (raiseFault code s).idx = s.idx := rfl
@[simp] theorem raiseFault_sR (code : BitVec 2) (s : State) : (raiseFault code s).sR = s.sR := rfl
@[simp] theorem raiseFault_h (code : BitVec 2) (s : State) : (raiseFault code s).h = s.h := rfl
@[simp] theorem raiseFault_runLen (code : BitVec 2) (s : State) : (raiseFault code s).runLen = s.runLen := rfl
@[simp] theorem raiseFault_eLast (code : BitVec 2) (s : State) : (raiseFault code s).eLast = s.eLast := rfl
@[simp] theorem raiseFault_wordStart (code : BitVec 2) (s : State) : (raiseFault code s).wordStart = s.wordStart := rfl
@[simp] theorem raiseFault_fieldStart (code : BitVec 2) (s : State) : (raiseFault code s).fieldStart = s.fieldStart := rfl
@[simp] theorem raiseFault_sel (code : BitVec 2) (s : State) : (raiseFault code s).sel = s.sel := rfl
@[simp] theorem raiseFault_phStart (code : BitVec 2) (s : State) : (raiseFault code s).phStart = s.phStart := rfl
@[simp] theorem raiseFault_phStop (code : BitVec 2) (s : State) : (raiseFault code s).phStop = s.phStop := rfl
@[simp] theorem raiseFault_faultCode (code : BitVec 2) (s : State) : (raiseFault code s).faultCode = code := rfl
@[simp] theorem raiseFault_out (code : BitVec 2) (s : State) : (raiseFault code s).out = s.out := rfl
@[simp] theorem raiseFault_stream (code : BitVec 2) (s : State) : (raiseFault code s).stream = s.stream := rfl
@[simp] theorem raiseFault_earlier (code : BitVec 2) (s : State) : (raiseFault code s).earlier = s.earlier := rfl
@[simp] theorem raiseFault_host (code : BitVec 2) (s : State) : (raiseFault code s).host = s.host := rfl

/-! ## clearWord -/

@[simp] theorem clearWord_rst (s : State) : (clearWord s).rst = s.rst := rfl
@[simp] theorem clearWord_line (s : State) : (clearWord s).line = s.line := rfl
@[simp] theorem clearWord_cfgIn (s : State) : (clearWord s).cfgIn = s.cfgIn := rfl
@[simp] theorem clearWord_cfg (s : State) : (clearWord s).cfg = s.cfg := rfl
@[simp] theorem clearWord_stWeight (s : State) : (clearWord s).stWeight = s.stWeight := rfl
@[simp] theorem clearWord_idxWidth (s : State) : (clearWord s).idxWidth = s.idxWidth := rfl
@[simp] theorem clearWord_cntWidth (s : State) : (clearWord s).cntWidth = s.cntWidth := rfl
@[simp] theorem clearWord_phase (s : State) : (clearWord s).phase = s.phase := rfl
@[simp] theorem clearWord_k (s : State) : (clearWord s).k = 0#5 := rfl
@[simp] theorem clearWord_labelRaw (s : State) : (clearWord s).labelRaw = 0#8 := rfl
@[simp] theorem clearWord_sdi (s : State) : (clearWord s).sdi = 0#2 := rfl
@[simp] theorem clearWord_data (s : State) : (clearWord s).data = 0#19 := rfl
@[simp] theorem clearWord_ssm (s : State) : (clearWord s).ssm = 0#2 := rfl
@[simp] theorem clearWord_par (s : State) : (clearWord s).par = 0#1 := rfl
@[simp] theorem clearWord_prev (s : State) : (clearWord s).prev = s.prev := rfl
@[simp] theorem clearWord_idx (s : State) : (clearWord s).idx = s.idx := rfl
@[simp] theorem clearWord_sR (s : State) : (clearWord s).sR = s.sR := rfl
@[simp] theorem clearWord_h (s : State) : (clearWord s).h = s.h := rfl
@[simp] theorem clearWord_runLen (s : State) : (clearWord s).runLen = s.runLen := rfl
@[simp] theorem clearWord_eLast (s : State) : (clearWord s).eLast = s.eLast := rfl
@[simp] theorem clearWord_wordStart (s : State) : (clearWord s).wordStart = s.wordStart := rfl
@[simp] theorem clearWord_fieldStart (s : State) : (clearWord s).fieldStart = s.fieldStart := rfl
@[simp] theorem clearWord_sel (s : State) : (clearWord s).sel = none := rfl
@[simp] theorem clearWord_phStart (s : State) : (clearWord s).phStart = none := rfl
@[simp] theorem clearWord_phStop (s : State) : (clearWord s).phStop = none := rfl
@[simp] theorem clearWord_faultCode (s : State) : (clearWord s).faultCode = s.faultCode := rfl
@[simp] theorem clearWord_out (s : State) : (clearWord s).out = s.out := rfl
@[simp] theorem clearWord_stream (s : State) : (clearWord s).stream = s.stream := rfl
@[simp] theorem clearWord_earlier (s : State) : (clearWord s).earlier = s.earlier := rfl
@[simp] theorem clearWord_host (s : State) : (clearWord s).host = s.host := rfl

/-! ## resetRegisters -/

@[simp] theorem resetRegisters_rst (c : Cfg) (s : State) : (resetRegisters c s).rst = s.rst := rfl
@[simp] theorem resetRegisters_line (c : Cfg) (s : State) : (resetRegisters c s).line = s.line := rfl
@[simp] theorem resetRegisters_cfgIn (c : Cfg) (s : State) : (resetRegisters c s).cfgIn = s.cfgIn := rfl
@[simp] theorem resetRegisters_cfg (c : Cfg) (s : State) : (resetRegisters c s).cfg = c := rfl
@[simp] theorem resetRegisters_stWeight (c : Cfg) (s : State) : (resetRegisters c s).stWeight = c.staticWeight := rfl
@[simp] theorem resetRegisters_idxWidth (c : Cfg) (s : State) : (resetRegisters c s).idxWidth = s.idxWidth := rfl
@[simp] theorem resetRegisters_cntWidth (c : Cfg) (s : State) : (resetRegisters c s).cntWidth = s.cntWidth := rfl
@[simp] theorem resetRegisters_phase (c : Cfg) (s : State) : (resetRegisters c s).phase = .trRise := rfl
@[simp] theorem resetRegisters_k (c : Cfg) (s : State) : (resetRegisters c s).k = 0#5 := rfl
@[simp] theorem resetRegisters_labelRaw (c : Cfg) (s : State) : (resetRegisters c s).labelRaw = 0#8 := rfl
@[simp] theorem resetRegisters_sdi (c : Cfg) (s : State) : (resetRegisters c s).sdi = 0#2 := rfl
@[simp] theorem resetRegisters_data (c : Cfg) (s : State) : (resetRegisters c s).data = 0#19 := rfl
@[simp] theorem resetRegisters_ssm (c : Cfg) (s : State) : (resetRegisters c s).ssm = 0#2 := rfl
@[simp] theorem resetRegisters_par (c : Cfg) (s : State) : (resetRegisters c s).par = 0#1 := rfl
@[simp] theorem resetRegisters_prev (c : Cfg) (s : State) : (resetRegisters c s).prev = none := rfl
@[simp] theorem resetRegisters_idx (c : Cfg) (s : State) : (resetRegisters c s).idx = 0 := rfl
@[simp] theorem resetRegisters_sR (c : Cfg) (s : State) : (resetRegisters c s).sR = 0 := rfl
@[simp] theorem resetRegisters_h (c : Cfg) (s : State) : (resetRegisters c s).h = 0 := rfl
@[simp] theorem resetRegisters_runLen (c : Cfg) (s : State) : (resetRegisters c s).runLen = 0 := rfl
@[simp] theorem resetRegisters_eLast (c : Cfg) (s : State) : (resetRegisters c s).eLast = 0 := rfl
@[simp] theorem resetRegisters_wordStart (c : Cfg) (s : State) : (resetRegisters c s).wordStart = 0 := rfl
@[simp] theorem resetRegisters_fieldStart (c : Cfg) (s : State) : (resetRegisters c s).fieldStart = 0 := rfl
@[simp] theorem resetRegisters_sel (c : Cfg) (s : State) : (resetRegisters c s).sel = none := rfl
@[simp] theorem resetRegisters_phStart (c : Cfg) (s : State) : (resetRegisters c s).phStart = none := rfl
@[simp] theorem resetRegisters_phStop (c : Cfg) (s : State) : (resetRegisters c s).phStop = none := rfl
@[simp] theorem resetRegisters_faultCode (c : Cfg) (s : State) : (resetRegisters c s).faultCode = 0#2 := rfl
@[simp] theorem resetRegisters_out (c : Cfg) (s : State) : (resetRegisters c s).out = [] := rfl
@[simp] theorem resetRegisters_stream (c : Cfg) (s : State) : (resetRegisters c s).stream = [] := rfl
@[simp] theorem resetRegisters_earlier (c : Cfg) (s : State) : (resetRegisters c s).earlier = s.earlier ++ s.stream := rfl
@[simp] theorem resetRegisters_host (c : Cfg) (s : State) : (resetRegisters c s).host = s.host := rfl

end Sys2Proof.Machine
end

