-- ==== Sys2Proof/Laws/Ops.lean ====
section
/-! SUPPORT. One lemma per shared operation that says everything it can answer, for the provers to cite instead of
unfolding it. -/

namespace Sys2Proof.Machine

/-! ## The end of a step -/

theorem endStep_next_iff (s t : State) :
    endStep s = .next t ↔ (consumeSample s).fits = true ∧ t = consumeSample s := by
  unfold endStep
  split
  · rename_i h; simp [h, eq_comm]
  · rename_i h; simp [h]

theorem endStep_of_fits {s : State} (h : (consumeSample s).fits = true) : endStep s = .next (consumeSample s) :=
  (endStep_next_iff s _).2 ⟨h, rfl⟩

theorem endStep_refused_iff (s : State) (r : Refusal) :
    endStep s = .refused r ↔ (consumeSample s).fits = false ∧ r = .widthExceeded := by
  unfold endStep
  split
  · rename_i h; simp [h]
  · rename_i h; simp [h, eq_comm]

theorem endStep_ne_fault (s : State) (f : Fault) : endStep s ≠ .fault f := by
  unfold endStep
  split <;> simp

/-- Without physical widths every state fits (00_scope.md R2). -/
theorem fits_of_unbounded {s : State} (hi : s.idxWidth = none) (hc : s.cntWidth = none) : s.fits = true := by
  simp [State.fits, fitsWidth, hi, hc]

/-! ## Reset -/

theorem startSession_next_iff (s t : State) :
    startSession s = .next t ↔ s.cfgIn.check = none ∧ t = resetChecks (resetRegisters s.cfgIn s) := by
  unfold startSession
  split
  · rename_i h; simp [h]
  · rename_i h; simp [h, eq_comm]

/-- The reset checks raise code 1, raise code 2, or leave `TR_RISE` (60_exceptions.md R261). -/
theorem resetChecks_cases (s : State) :
    (s.cfg.srValid = false ∧ resetChecks s = raiseFault 1#2 s) ∨
    (s.cfg.srValid = true ∧ s.cfg.tableMode = true ∧ s.cfg.tblPresent = false ∧ resetChecks s = raiseFault 2#2 s) ∨
    (s.cfg.srValid = true ∧ (s.cfg.tableMode = true → s.cfg.tblPresent = true) ∧
      resetChecks s = { s with phase := .trRise }) := by
  unfold resetChecks
  cases s.cfg.srValid <;> cases s.cfg.tableMode <;> cases s.cfg.tblPresent <;> simp

theorem driveRst_next_iff (level : Bool) (s t : State) :
    driveRst level s = .next t ↔
      (level = true ∧ t = { s with rst := true }) ∨
      (level = false ∧ s.rst = true ∧ startSession { s with rst := false } = .next t) ∨
      (level = false ∧ s.rst = false ∧ t = s) := by
  unfold driveRst
  cases level <;> cases h : s.rst <;> simp [eq_comm]

theorem driveConfig_next_iff (c : Cfg) (s t : State) :
    driveConfig c s = .next t ↔
      (s.rst = true ∧ t = { s with cfgIn := c }) ∨ (s.rst = false ∧ c = s.cfgIn ∧ t = s) := by
  unfold driveConfig
  cases h : s.rst
  · by_cases hc : c = s.cfgIn <;> simp [hc, eq_comm]
  · simp [eq_comm]

/-! ## Delivery -/

theorem deliver_next_iff (r : Result) (t : State) :
    deliver r = .next t ↔ ∃ u, r = .next u ∧ t = { u with stream := u.stream ++ u.out } := by
  cases r <;> simp [deliver, eq_comm]

/-! ## Acquisition -/

/-- ACQUIRE as one update: every register it writes, and by what (42_field_extractor.md R165). -/
theorem acquire_eq (k : BitIndex) (s : State) :
    acquire k s =
      { s with
        out := s.out ++ [.bitValue s.idx s.spanEnd s.bitNow, .bitOrdinal s.idx s.spanEnd (k.toNat + 1)]
        wordStart := if k = 0#5 then s.idx else s.wordStart
        fieldStart := if isFieldStart k = true then s.idx else s.fieldStart
        phStart := match s.sel with
          | none => s.phStart
          | some e => if isDataBit k = true ∧ k.toNat - 10 = e.f - 11 then some s.idx else s.phStart
        phStop := match s.sel with
          | none => s.phStop
          | some e => if isDataBit k = true ∧ k.toNat - 10 = e.stopJ then some s.idx else s.phStop } := by
  unfold acquire capturePh
  cases hs : s.sel <;> cases hd : isDataBit k <;> by_cases hk : k = 0#5 <;> cases hf : isFieldStart k <;>
    simp_all [emit, State.spanEnd]

/-- What ACQUIRE emits (42_field_extractor.md R165, R166). -/
@[simp] theorem acquire_out (k : BitIndex) (s : State) :
    (acquire k s).out =
      s.out ++ [.bitValue s.idx s.spanEnd s.bitNow, .bitOrdinal s.idx s.spanEnd (k.toNat + 1)] := by
  rw [acquire_eq]

/-- The field operation of `k` is the meaning of the instruction `k` selects (30_encoding.md R103). -/
theorem exec_decodeAcq (k : BitIndex) (s : State) : exec (decodeAcq k) s = .next (fieldOp k s) := by
  unfold decodeAcq fieldOp
  repeat' split
  all_goals rfl

/-! ## LUT entries -/

@[simp] theorem LutEntry.entry_name (r : LutEntry) : r.entry.name = r.name := rfl
@[simp] theorem LutEntry.entry_address (r : LutEntry) : r.entry.address = r.address := rfl
@[simp] theorem LutEntry.entry_firstBit (r : LutEntry) : r.entry.firstBit = r.firstBit := rfl
@[simp] theorem LutEntry.entry_lastBit (r : LutEntry) : r.entry.lastBit = r.lastBit := rfl
@[simp] theorem LutEntry.entry_signMode (r : LutEntry) : r.entry.signMode = r.signMode := rfl
@[simp] theorem LutEntry.entry_lsbWeight (r : LutEntry) : r.entry.lsbWeight = r.lsbWeight := rfl

/-- Widening keeps the identifier (30_encoding.md R95). -/
@[simp] theorem LutEntry.entry_identifier_toNat (r : LutEntry) : r.entry.identifier.toNat = r.identifier.toNat := by
  have := r.identifier.isLt
  simp [LutEntry.entry, BitVec.toNat_setWidth]
  omega

/-- A LUT entry that passes WF_LUT is one the scaler accepts. -/
theorem LutEntry.entry_legal {r : LutEntry} (h : r.wf = true) : r.entry.legal = true := by
  simp only [LutEntry.wf, Bool.and_eq_true] at h
  simp only [Entry.legal, Bool.and_eq_true]
  exact ⟨h.1.2, h.2⟩

/-- Everything RESOLVE_TABLE can return: absent, or a row of the LUT with the key (45_resolver.md R242). -/
theorem resolveTableKey_some {addr : Nat} {ident : BitVec 2} {s : State} {e : Entry}
    (h : resolveTableKey addr ident s = some e) :
    ∃ r ∈ s.cfg.lut, r.address.toNat = addr ∧ r.identifier = ident ∧ e = r.entry := by
  obtain ⟨r, hr, rfl⟩ := Option.map_eq_some_iff.mp h
  have key := List.find?_some hr
  simp only [LutEntry.hasKey, decide_eq_true_eq] at key
  exact ⟨r, List.mem_of_find?_eq_some hr, key.1, key.2, rfl⟩

end Sys2Proof.Machine
end

