-- ==== Sys2Proof/Laws/Frames.lean ====
section
/-! SUPPORT. Frames of the shared procedures: the registers each leaves alone, one lemma per register. -/

namespace Sys2Proof.Machine

/-! ## acquire -/

@[simp] theorem acquire_rst (k : BitIndex) (s : State) : (acquire k s).rst = s.rst := by rw [acquire_eq]
@[simp] theorem acquire_line (k : BitIndex) (s : State) : (acquire k s).line = s.line := by rw [acquire_eq]
@[simp] theorem acquire_cfgIn (k : BitIndex) (s : State) : (acquire k s).cfgIn = s.cfgIn := by rw [acquire_eq]
@[simp] theorem acquire_cfg (k : BitIndex) (s : State) : (acquire k s).cfg = s.cfg := by rw [acquire_eq]
@[simp] theorem acquire_stWeight (k : BitIndex) (s : State) : (acquire k s).stWeight = s.stWeight := by rw [acquire_eq]
@[simp] theorem acquire_idxWidth (k : BitIndex) (s : State) : (acquire k s).idxWidth = s.idxWidth := by rw [acquire_eq]
@[simp] theorem acquire_cntWidth (k : BitIndex) (s : State) : (acquire k s).cntWidth = s.cntWidth := by rw [acquire_eq]
@[simp] theorem acquire_phase (k : BitIndex) (s : State) : (acquire k s).phase = s.phase := by rw [acquire_eq]
@[simp] theorem acquire_k (k : BitIndex) (s : State) : (acquire k s).k = s.k := by rw [acquire_eq]
@[simp] theorem acquire_labelRaw (k : BitIndex) (s : State) : (acquire k s).labelRaw = s.labelRaw := by rw [acquire_eq]
@[simp] theorem acquire_sdi (k : BitIndex) (s : State) : (acquire k s).sdi = s.sdi := by rw [acquire_eq]
@[simp] theorem acquire_data (k : BitIndex) (s : State) : (acquire k s).data = s.data := by rw [acquire_eq]
@[simp] theorem acquire_ssm (k : BitIndex) (s : State) : (acquire k s).ssm = s.ssm := by rw [acquire_eq]
@[simp] theorem acquire_par (k : BitIndex) (s : State) : (acquire k s).par = s.par := by rw [acquire_eq]
@[simp] theorem acquire_prev (k : BitIndex) (s : State) : (acquire k s).prev = s.prev := by rw [acquire_eq]
@[simp] theorem acquire_idx (k : BitIndex) (s : State) : (acquire k s).idx = s.idx := by rw [acquire_eq]
@[simp] theorem acquire_sR (k : BitIndex) (s : State) : (acquire k s).sR = s.sR := by rw [acquire_eq]
@[simp] theorem acquire_h (k : BitIndex) (s : State) : (acquire k s).h = s.h := by rw [acquire_eq]
@[simp] theorem acquire_runLen (k : BitIndex) (s : State) : (acquire k s).runLen = s.runLen := by rw [acquire_eq]
@[simp] theorem acquire_eLast (k : BitIndex) (s : State) : (acquire k s).eLast = s.eLast := by rw [acquire_eq]
@[simp] theorem acquire_sel (k : BitIndex) (s : State) : (acquire k s).sel = s.sel := by rw [acquire_eq]
@[simp] theorem acquire_faultCode (k : BitIndex) (s : State) : (acquire k s).faultCode = s.faultCode := by rw [acquire_eq]
@[simp] theorem acquire_stream (k : BitIndex) (s : State) : (acquire k s).stream = s.stream := by rw [acquire_eq]
@[simp] theorem acquire_earlier (k : BitIndex) (s : State) : (acquire k s).earlier = s.earlier := by rw [acquire_eq]
@[simp] theorem acquire_host (k : BitIndex) (s : State) : (acquire k s).host = s.host := by rw [acquire_eq]

/-! ## resolveWord -/

@[simp] theorem resolveWord_rst (s : State) : (resolveWord s).rst = s.rst := by unfold resolveWord; split <;> (try split) <;> rfl
@[simp] theorem resolveWord_line (s : State) : (resolveWord s).line = s.line := by unfold resolveWord; split <;> (try split) <;> rfl
@[simp] theorem resolveWord_cfgIn (s : State) : (resolveWord s).cfgIn = s.cfgIn := by unfold resolveWord; split <;> (try split) <;> rfl
@[simp] theorem resolveWord_cfg (s : State) : (resolveWord s).cfg = s.cfg := by unfold resolveWord; split <;> (try split) <;> rfl
@[simp] theorem resolveWord_stWeight (s : State) : (resolveWord s).stWeight = s.stWeight := by unfold resolveWord; split <;> (try split) <;> rfl
@[simp] theorem resolveWord_idxWidth (s : State) : (resolveWord s).idxWidth = s.idxWidth := by unfold resolveWord; split <;> (try split) <;> rfl
@[simp] theorem resolveWord_cntWidth (s : State) : (resolveWord s).cntWidth = s.cntWidth := by unfold resolveWord; split <;> (try split) <;> rfl
@[simp] theorem resolveWord_phase (s : State) : (resolveWord s).phase = s.phase := by unfold resolveWord; split <;> (try split) <;> rfl
@[simp] theorem resolveWord_k (s : State) : (resolveWord s).k = s.k := by unfold resolveWord; split <;> (try split) <;> rfl
@[simp] theorem resolveWord_labelRaw (s : State) : (resolveWord s).labelRaw = s.labelRaw := by unfold resolveWord; split <;> (try split) <;> rfl
@[simp] theorem resolveWord_sdi (s : State) : (resolveWord s).sdi = s.sdi := by unfold resolveWord; split <;> (try split) <;> rfl
@[simp] theorem resolveWord_data (s : State) : (resolveWord s).data = s.data := by unfold resolveWord; split <;> (try split) <;> rfl
@[simp] theorem resolveWord_ssm (s : State) : (resolveWord s).ssm = s.ssm := by unfold resolveWord; split <;> (try split) <;> rfl
@[simp] theorem resolveWord_par (s : State) : (resolveWord s).par = s.par := by unfold resolveWord; split <;> (try split) <;> rfl
@[simp] theorem resolveWord_prev (s : State) : (resolveWord s).prev = s.prev := by unfold resolveWord; split <;> (try split) <;> rfl
@[simp] theorem resolveWord_idx (s : State) : (resolveWord s).idx = s.idx := by unfold resolveWord; split <;> (try split) <;> rfl
@[simp] theorem resolveWord_sR (s : State) : (resolveWord s).sR = s.sR := by unfold resolveWord; split <;> (try split) <;> rfl
@[simp] theorem resolveWord_h (s : State) : (resolveWord s).h = s.h := by unfold resolveWord; split <;> (try split) <;> rfl
@[simp] theorem resolveWord_runLen (s : State) : (resolveWord s).runLen = s.runLen := by unfold resolveWord; split <;> (try split) <;> rfl
@[simp] theorem resolveWord_eLast (s : State) : (resolveWord s).eLast = s.eLast := by unfold resolveWord; split <;> (try split) <;> rfl
@[simp] theorem resolveWord_wordStart (s : State) : (resolveWord s).wordStart = s.wordStart := by unfold resolveWord; split <;> (try split) <;> rfl
@[simp] theorem resolveWord_fieldStart (s : State) : (resolveWord s).fieldStart = s.fieldStart := by unfold resolveWord; split <;> (try split) <;> rfl
@[simp] theorem resolveWord_phStart (s : State) : (resolveWord s).phStart = s.phStart := by unfold resolveWord; split <;> (try split) <;> rfl
@[simp] theorem resolveWord_phStop (s : State) : (resolveWord s).phStop = s.phStop := by unfold resolveWord; split <;> (try split) <;> rfl
@[simp] theorem resolveWord_faultCode (s : State) : (resolveWord s).faultCode = s.faultCode := by unfold resolveWord; split <;> (try split) <;> rfl
@[simp] theorem resolveWord_out (s : State) : (resolveWord s).out = s.out := by unfold resolveWord; split <;> (try split) <;> rfl
@[simp] theorem resolveWord_stream (s : State) : (resolveWord s).stream = s.stream := by unfold resolveWord; split <;> (try split) <;> rfl
@[simp] theorem resolveWord_earlier (s : State) : (resolveWord s).earlier = s.earlier := by unfold resolveWord; split <;> (try split) <;> rfl
@[simp] theorem resolveWord_host (s : State) : (resolveWord s).host = s.host := by unfold resolveWord; split <;> (try split) <;> rfl

/-! ## scaleWith -/

@[simp] theorem scaleWith_rst (g : Entry → BitVec 19 → Scaled) (s : State) : (scaleWith g s).rst = s.rst := by unfold scaleWith; split <;> rfl
@[simp] theorem scaleWith_line (g : Entry → BitVec 19 → Scaled) (s : State) : (scaleWith g s).line = s.line := by unfold scaleWith; split <;> rfl
@[simp] theorem scaleWith_cfgIn (g : Entry → BitVec 19 → Scaled) (s : State) : (scaleWith g s).cfgIn = s.cfgIn := by unfold scaleWith; split <;> rfl
@[simp] theorem scaleWith_cfg (g : Entry → BitVec 19 → Scaled) (s : State) : (scaleWith g s).cfg = s.cfg := by unfold scaleWith; split <;> rfl
@[simp] theorem scaleWith_stWeight (g : Entry → BitVec 19 → Scaled) (s : State) : (scaleWith g s).stWeight = s.stWeight := by unfold scaleWith; split <;> rfl
@[simp] theorem scaleWith_idxWidth (g : Entry → BitVec 19 → Scaled) (s : State) : (scaleWith g s).idxWidth = s.idxWidth := by unfold scaleWith; split <;> rfl
@[simp] theorem scaleWith_cntWidth (g : Entry → BitVec 19 → Scaled) (s : State) : (scaleWith g s).cntWidth = s.cntWidth := by unfold scaleWith; split <;> rfl
@[simp] theorem scaleWith_phase (g : Entry → BitVec 19 → Scaled) (s : State) : (scaleWith g s).phase = s.phase := by unfold scaleWith; split <;> rfl
@[simp] theorem scaleWith_k (g : Entry → BitVec 19 → Scaled) (s : State) : (scaleWith g s).k = s.k := by unfold scaleWith; split <;> rfl
@[simp] theorem scaleWith_labelRaw (g : Entry → BitVec 19 → Scaled) (s : State) : (scaleWith g s).labelRaw = s.labelRaw := by unfold scaleWith; split <;> rfl
@[simp] theorem scaleWith_sdi (g : Entry → BitVec 19 → Scaled) (s : State) : (scaleWith g s).sdi = s.sdi := by unfold scaleWith; split <;> rfl
@[simp] theorem scaleWith_data (g : Entry → BitVec 19 → Scaled) (s : State) : (scaleWith g s).data = s.data := by unfold scaleWith; split <;> rfl
@[simp] theorem scaleWith_ssm (g : Entry → BitVec 19 → Scaled) (s : State) : (scaleWith g s).ssm = s.ssm := by unfold scaleWith; split <;> rfl
@[simp] theorem scaleWith_par (g : Entry → BitVec 19 → Scaled) (s : State) : (scaleWith g s).par = s.par := by unfold scaleWith; split <;> rfl
@[simp] theorem scaleWith_prev (g : Entry → BitVec 19 → Scaled) (s : State) : (scaleWith g s).prev = s.prev := by unfold scaleWith; split <;> rfl
@[simp] theorem scaleWith_idx (g : Entry → BitVec 19 → Scaled) (s : State) : (scaleWith g s).idx = s.idx := by unfold scaleWith; split <;> rfl
@[simp] theorem scaleWith_sR (g : Entry → BitVec 19 → Scaled) (s : State) : (scaleWith g s).sR = s.sR := by unfold scaleWith; split <;> rfl
@[simp] theorem scaleWith_h (g : Entry → BitVec 19 → Scaled) (s : State) : (scaleWith g s).h = s.h := by unfold scaleWith; split <;> rfl
@[simp] theorem scaleWith_runLen (g : Entry → BitVec 19 → Scaled) (s : State) : (scaleWith g s).runLen = s.runLen := by unfold scaleWith; split <;> rfl
@[simp] theorem scaleWith_eLast (g : Entry → BitVec 19 → Scaled) (s : State) : (scaleWith g s).eLast = s.eLast := by unfold scaleWith; split <;> rfl
@[simp] theorem scaleWith_wordStart (g : Entry → BitVec 19 → Scaled) (s : State) : (scaleWith g s).wordStart = s.wordStart := by unfold scaleWith; split <;> rfl
@[simp] theorem scaleWith_fieldStart (g : Entry → BitVec 19 → Scaled) (s : State) : (scaleWith g s).fieldStart = s.fieldStart := by unfold scaleWith; split <;> rfl
@[simp] theorem scaleWith_sel (g : Entry → BitVec 19 → Scaled) (s : State) : (scaleWith g s).sel = s.sel := by unfold scaleWith; split <;> rfl
@[simp] theorem scaleWith_phStart (g : Entry → BitVec 19 → Scaled) (s : State) : (scaleWith g s).phStart = s.phStart := by unfold scaleWith; split <;> rfl
@[simp] theorem scaleWith_phStop (g : Entry → BitVec 19 → Scaled) (s : State) : (scaleWith g s).phStop = s.phStop := by unfold scaleWith; split <;> rfl
@[simp] theorem scaleWith_faultCode (g : Entry → BitVec 19 → Scaled) (s : State) : (scaleWith g s).faultCode = s.faultCode := by unfold scaleWith; split <;> rfl
@[simp] theorem scaleWith_stream (g : Entry → BitVec 19 → Scaled) (s : State) : (scaleWith g s).stream = s.stream := by unfold scaleWith; split <;> rfl
@[simp] theorem scaleWith_earlier (g : Entry → BitVec 19 → Scaled) (s : State) : (scaleWith g s).earlier = s.earlier := by unfold scaleWith; split <;> rfl
@[simp] theorem scaleWith_host (g : Entry → BitVec 19 → Scaled) (s : State) : (scaleWith g s).host = s.host := by unfold scaleWith; split <;> rfl

/-! ## scaleWord -/

@[simp] theorem scaleWord_rst (s : State) : (scaleWord s).rst = s.rst := by unfold scaleWord; split <;> (try split) <;> (try split) <;> (try split) <;> simp
@[simp] theorem scaleWord_line (s : State) : (scaleWord s).line = s.line := by unfold scaleWord; split <;> (try split) <;> (try split) <;> (try split) <;> simp
@[simp] theorem scaleWord_cfgIn (s : State) : (scaleWord s).cfgIn = s.cfgIn := by unfold scaleWord; split <;> (try split) <;> (try split) <;> (try split) <;> simp
@[simp] theorem scaleWord_cfg (s : State) : (scaleWord s).cfg = s.cfg := by unfold scaleWord; split <;> (try split) <;> (try split) <;> (try split) <;> simp
@[simp] theorem scaleWord_stWeight (s : State) : (scaleWord s).stWeight = s.stWeight := by unfold scaleWord; split <;> (try split) <;> (try split) <;> (try split) <;> simp
@[simp] theorem scaleWord_idxWidth (s : State) : (scaleWord s).idxWidth = s.idxWidth := by unfold scaleWord; split <;> (try split) <;> (try split) <;> (try split) <;> simp
@[simp] theorem scaleWord_cntWidth (s : State) : (scaleWord s).cntWidth = s.cntWidth := by unfold scaleWord; split <;> (try split) <;> (try split) <;> (try split) <;> simp
@[simp] theorem scaleWord_phase (s : State) : (scaleWord s).phase = s.phase := by unfold scaleWord; split <;> (try split) <;> (try split) <;> (try split) <;> simp
@[simp] theorem scaleWord_k (s : State) : (scaleWord s).k = s.k := by unfold scaleWord; split <;> (try split) <;> (try split) <;> (try split) <;> simp
@[simp] theorem scaleWord_labelRaw (s : State) : (scaleWord s).labelRaw = s.labelRaw := by unfold scaleWord; split <;> (try split) <;> (try split) <;> (try split) <;> simp
@[simp] theorem scaleWord_sdi (s : State) : (scaleWord s).sdi = s.sdi := by unfold scaleWord; split <;> (try split) <;> (try split) <;> (try split) <;> simp
@[simp] theorem scaleWord_data (s : State) : (scaleWord s).data = s.data := by unfold scaleWord; split <;> (try split) <;> (try split) <;> (try split) <;> simp
@[simp] theorem scaleWord_ssm (s : State) : (scaleWord s).ssm = s.ssm := by unfold scaleWord; split <;> (try split) <;> (try split) <;> (try split) <;> simp
@[simp] theorem scaleWord_par (s : State) : (scaleWord s).par = s.par := by unfold scaleWord; split <;> (try split) <;> (try split) <;> (try split) <;> simp
@[simp] theorem scaleWord_prev (s : State) : (scaleWord s).prev = s.prev := by unfold scaleWord; split <;> (try split) <;> (try split) <;> (try split) <;> simp
@[simp] theorem scaleWord_idx (s : State) : (scaleWord s).idx = s.idx := by unfold scaleWord; split <;> (try split) <;> (try split) <;> (try split) <;> simp
@[simp] theorem scaleWord_sR (s : State) : (scaleWord s).sR = s.sR := by unfold scaleWord; split <;> (try split) <;> (try split) <;> (try split) <;> simp
@[simp] theorem scaleWord_h (s : State) : (scaleWord s).h = s.h := by unfold scaleWord; split <;> (try split) <;> (try split) <;> (try split) <;> simp
@[simp] theorem scaleWord_runLen (s : State) : (scaleWord s).runLen = s.runLen := by unfold scaleWord; split <;> (try split) <;> (try split) <;> (try split) <;> simp
@[simp] theorem scaleWord_eLast (s : State) : (scaleWord s).eLast = s.eLast := by unfold scaleWord; split <;> (try split) <;> (try split) <;> (try split) <;> simp
@[simp] theorem scaleWord_wordStart (s : State) : (scaleWord s).wordStart = s.wordStart := by unfold scaleWord; split <;> (try split) <;> (try split) <;> (try split) <;> simp
@[simp] theorem scaleWord_fieldStart (s : State) : (scaleWord s).fieldStart = s.fieldStart := by unfold scaleWord; split <;> (try split) <;> (try split) <;> (try split) <;> simp
@[simp] theorem scaleWord_sel (s : State) : (scaleWord s).sel = s.sel := by unfold scaleWord; split <;> (try split) <;> (try split) <;> (try split) <;> simp
@[simp] theorem scaleWord_phStart (s : State) : (scaleWord s).phStart = s.phStart := by unfold scaleWord; split <;> (try split) <;> (try split) <;> (try split) <;> simp
@[simp] theorem scaleWord_phStop (s : State) : (scaleWord s).phStop = s.phStop := by unfold scaleWord; split <;> (try split) <;> (try split) <;> (try split) <;> simp
@[simp] theorem scaleWord_faultCode (s : State) : (scaleWord s).faultCode = s.faultCode := by unfold scaleWord; split <;> (try split) <;> (try split) <;> (try split) <;> simp
@[simp] theorem scaleWord_stream (s : State) : (scaleWord s).stream = s.stream := by unfold scaleWord; split <;> (try split) <;> (try split) <;> (try split) <;> simp
@[simp] theorem scaleWord_earlier (s : State) : (scaleWord s).earlier = s.earlier := by unfold scaleWord; split <;> (try split) <;> (try split) <;> (try split) <;> simp
@[simp] theorem scaleWord_host (s : State) : (scaleWord s).host = s.host := by unfold scaleWord; split <;> (try split) <;> (try split) <;> (try split) <;> simp

/-! ## parityVerdict -/

@[simp] theorem parityVerdict_rst (s : State) : (parityVerdict s).rst = s.rst := rfl
@[simp] theorem parityVerdict_line (s : State) : (parityVerdict s).line = s.line := rfl
@[simp] theorem parityVerdict_cfgIn (s : State) : (parityVerdict s).cfgIn = s.cfgIn := rfl
@[simp] theorem parityVerdict_cfg (s : State) : (parityVerdict s).cfg = s.cfg := rfl
@[simp] theorem parityVerdict_stWeight (s : State) : (parityVerdict s).stWeight = s.stWeight := rfl
@[simp] theorem parityVerdict_idxWidth (s : State) : (parityVerdict s).idxWidth = s.idxWidth := rfl
@[simp] theorem parityVerdict_cntWidth (s : State) : (parityVerdict s).cntWidth = s.cntWidth := rfl
@[simp] theorem parityVerdict_phase (s : State) : (parityVerdict s).phase = s.phase := rfl
@[simp] theorem parityVerdict_k (s : State) : (parityVerdict s).k = s.k := rfl
@[simp] theorem parityVerdict_labelRaw (s : State) : (parityVerdict s).labelRaw = s.labelRaw := rfl
@[simp] theorem parityVerdict_sdi (s : State) : (parityVerdict s).sdi = s.sdi := rfl
@[simp] theorem parityVerdict_data (s : State) : (parityVerdict s).data = s.data := rfl
@[simp] theorem parityVerdict_ssm (s : State) : (parityVerdict s).ssm = s.ssm := rfl
@[simp] theorem parityVerdict_par (s : State) : (parityVerdict s).par = s.par := rfl
@[simp] theorem parityVerdict_prev (s : State) : (parityVerdict s).prev = s.prev := rfl
@[simp] theorem parityVerdict_idx (s : State) : (parityVerdict s).idx = s.idx := rfl
@[simp] theorem parityVerdict_sR (s : State) : (parityVerdict s).sR = s.sR := rfl
@[simp] theorem parityVerdict_h (s : State) : (parityVerdict s).h = s.h := rfl
@[simp] theorem parityVerdict_runLen (s : State) : (parityVerdict s).runLen = s.runLen := rfl
@[simp] theorem parityVerdict_eLast (s : State) : (parityVerdict s).eLast = s.eLast := rfl
@[simp] theorem parityVerdict_wordStart (s : State) : (parityVerdict s).wordStart = s.wordStart := rfl
@[simp] theorem parityVerdict_fieldStart (s : State) : (parityVerdict s).fieldStart = s.fieldStart := rfl
@[simp] theorem parityVerdict_sel (s : State) : (parityVerdict s).sel = s.sel := rfl
@[simp] theorem parityVerdict_phStart (s : State) : (parityVerdict s).phStart = s.phStart := rfl
@[simp] theorem parityVerdict_phStop (s : State) : (parityVerdict s).phStop = s.phStop := rfl
@[simp] theorem parityVerdict_faultCode (s : State) : (parityVerdict s).faultCode = s.faultCode := rfl
@[simp] theorem parityVerdict_stream (s : State) : (parityVerdict s).stream = s.stream := rfl
@[simp] theorem parityVerdict_earlier (s : State) : (parityVerdict s).earlier = s.earlier := rfl
@[simp] theorem parityVerdict_host (s : State) : (parityVerdict s).host = s.host := rfl

/-! ## fieldOp -/

/-- The field operation of `k`, case by case. -/
theorem fieldOp_cases (k : BitIndex) (s : State) :
    (k.toNat ≤ 6 ∧ fieldOp k s = acqLabel k s) ∨ (k = 7#5 ∧ fieldOp k s = acqLabelLast s) ∨
    (k = 8#5 ∧ fieldOp k s = acqSdi s) ∨ (k = 9#5 ∧ fieldOp k s = acqSdiLast s) ∨
    (10 ≤ k.toNat ∧ k.toNat ≤ 27 ∧ fieldOp k s = acqData k s) ∨ (k = 28#5 ∧ fieldOp k s = acqDataLast s) ∨
    (k = 29#5 ∧ fieldOp k s = acqSsm s) ∨ (k = 30#5 ∧ fieldOp k s = acqSsmLast s) ∨
    (k = 31#5 ∧ fieldOp k s = acqParity s) := by
  have hk : ∀ n : Nat, n < 32 → k.toNat = n → k = BitVec.ofNat 5 n := fun n _ h => by
    rw [← h, BitVec.ofNat_toNat, BitVec.setWidth_eq]
  have lt := k.isLt
  unfold fieldOp
  split
  · exact .inl ⟨by assumption, rfl⟩
  split
  · exact .inr (.inl ⟨hk 7 (by omega) (by assumption), rfl⟩)
  split
  · exact .inr (.inr (.inl ⟨hk 8 (by omega) (by assumption), rfl⟩))
  split
  · exact .inr (.inr (.inr (.inl ⟨hk 9 (by omega) (by assumption), rfl⟩)))
  split
  · exact .inr (.inr (.inr (.inr (.inl ⟨by omega, by assumption, rfl⟩))))
  split
  · exact .inr (.inr (.inr (.inr (.inr (.inl ⟨hk 28 (by omega) (by assumption), rfl⟩)))))
  split
  · exact .inr (.inr (.inr (.inr (.inr (.inr (.inl ⟨hk 29 (by omega) (by assumption), rfl⟩))))))
  split
  · exact .inr (.inr (.inr (.inr (.inr (.inr (.inr (.inl ⟨hk 30 (by omega) (by assumption), rfl⟩)))))))
  · exact .inr (.inr (.inr (.inr (.inr (.inr (.inr (.inr ⟨hk 31 (by omega) (by omega), rfl⟩)))))))

@[simp] theorem fieldOp_rst (k : BitIndex) (s : State) : (fieldOp k s).rst = s.rst := by
  rcases fieldOp_cases k s with ⟨_, h⟩ | ⟨_, h⟩ | ⟨_, h⟩ | ⟨_, h⟩ | ⟨_, _, h⟩ | ⟨_, h⟩ | ⟨_, h⟩ | ⟨_, h⟩ | ⟨_, h⟩ <;> rw [h] <;>
    simp [acqLabel, acqLabelLast, acqSdi, acqSdiLast, acqData, acqDataLast, acqSsm, acqSsmLast, acqParity]
@[simp] theorem fieldOp_line (k : BitIndex) (s : State) : (fieldOp k s).line = s.line := by
  rcases fieldOp_cases k s with ⟨_, h⟩ | ⟨_, h⟩ | ⟨_, h⟩ | ⟨_, h⟩ | ⟨_, _, h⟩ | ⟨_, h⟩ | ⟨_, h⟩ | ⟨_, h⟩ | ⟨_, h⟩ <;> rw [h] <;>
    simp [acqLabel, acqLabelLast, acqSdi, acqSdiLast, acqData, acqDataLast, acqSsm, acqSsmLast, acqParity]
@[simp] theorem fieldOp_cfgIn (k : BitIndex) (s : State) : (fieldOp k s).cfgIn = s.cfgIn := by
  rcases fieldOp_cases k s with ⟨_, h⟩ | ⟨_, h⟩ | ⟨_, h⟩ | ⟨_, h⟩ | ⟨_, _, h⟩ | ⟨_, h⟩ | ⟨_, h⟩ | ⟨_, h⟩ | ⟨_, h⟩ <;> rw [h] <;>
    simp [acqLabel, acqLabelLast, acqSdi, acqSdiLast, acqData, acqDataLast, acqSsm, acqSsmLast, acqParity]
@[simp] theorem fieldOp_cfg (k : BitIndex) (s : State) : (fieldOp k s).cfg = s.cfg := by
  rcases fieldOp_cases k s with ⟨_, h⟩ | ⟨_, h⟩ | ⟨_, h⟩ | ⟨_, h⟩ | ⟨_, _, h⟩ | ⟨_, h⟩ | ⟨_, h⟩ | ⟨_, h⟩ | ⟨_, h⟩ <;> rw [h] <;>
    simp [acqLabel, acqLabelLast, acqSdi, acqSdiLast, acqData, acqDataLast, acqSsm, acqSsmLast, acqParity]
@[simp] theorem fieldOp_stWeight (k : BitIndex) (s : State) : (fieldOp k s).stWeight = s.stWeight := by
  rcases fieldOp_cases k s with ⟨_, h⟩ | ⟨_, h⟩ | ⟨_, h⟩ | ⟨_, h⟩ | ⟨_, _, h⟩ | ⟨_, h⟩ | ⟨_, h⟩ | ⟨_, h⟩ | ⟨_, h⟩ <;> rw [h] <;>
    simp [acqLabel, acqLabelLast, acqSdi, acqSdiLast, acqData, acqDataLast, acqSsm, acqSsmLast, acqParity]
@[simp] theorem fieldOp_idxWidth (k : BitIndex) (s : State) : (fieldOp k s).idxWidth = s.idxWidth := by
  rcases fieldOp_cases k s with ⟨_, h⟩ | ⟨_, h⟩ | ⟨_, h⟩ | ⟨_, h⟩ | ⟨_, _, h⟩ | ⟨_, h⟩ | ⟨_, h⟩ | ⟨_, h⟩ | ⟨_, h⟩ <;> rw [h] <;>
    simp [acqLabel, acqLabelLast, acqSdi, acqSdiLast, acqData, acqDataLast, acqSsm, acqSsmLast, acqParity]
@[simp] theorem fieldOp_cntWidth (k : BitIndex) (s : State) : (fieldOp k s).cntWidth = s.cntWidth := by
  rcases fieldOp_cases k s with ⟨_, h⟩ | ⟨_, h⟩ | ⟨_, h⟩ | ⟨_, h⟩ | ⟨_, _, h⟩ | ⟨_, h⟩ | ⟨_, h⟩ | ⟨_, h⟩ | ⟨_, h⟩ <;> rw [h] <;>
    simp [acqLabel, acqLabelLast, acqSdi, acqSdiLast, acqData, acqDataLast, acqSsm, acqSsmLast, acqParity]
@[simp] theorem fieldOp_prev (k : BitIndex) (s : State) : (fieldOp k s).prev = s.prev := by
  rcases fieldOp_cases k s with ⟨_, h⟩ | ⟨_, h⟩ | ⟨_, h⟩ | ⟨_, h⟩ | ⟨_, _, h⟩ | ⟨_, h⟩ | ⟨_, h⟩ | ⟨_, h⟩ | ⟨_, h⟩ <;> rw [h] <;>
    simp [acqLabel, acqLabelLast, acqSdi, acqSdiLast, acqData, acqDataLast, acqSsm, acqSsmLast, acqParity]
@[simp] theorem fieldOp_idx (k : BitIndex) (s : State) : (fieldOp k s).idx = s.idx := by
  rcases fieldOp_cases k s with ⟨_, h⟩ | ⟨_, h⟩ | ⟨_, h⟩ | ⟨_, h⟩ | ⟨_, _, h⟩ | ⟨_, h⟩ | ⟨_, h⟩ | ⟨_, h⟩ | ⟨_, h⟩ <;> rw [h] <;>
    simp [acqLabel, acqLabelLast, acqSdi, acqSdiLast, acqData, acqDataLast, acqSsm, acqSsmLast, acqParity]
@[simp] theorem fieldOp_sR (k : BitIndex) (s : State) : (fieldOp k s).sR = s.sR := by
  rcases fieldOp_cases k s with ⟨_, h⟩ | ⟨_, h⟩ | ⟨_, h⟩ | ⟨_, h⟩ | ⟨_, _, h⟩ | ⟨_, h⟩ | ⟨_, h⟩ | ⟨_, h⟩ | ⟨_, h⟩ <;> rw [h] <;>
    simp [acqLabel, acqLabelLast, acqSdi, acqSdiLast, acqData, acqDataLast, acqSsm, acqSsmLast, acqParity]
@[simp] theorem fieldOp_h (k : BitIndex) (s : State) : (fieldOp k s).h = s.h := by
  rcases fieldOp_cases k s with ⟨_, h⟩ | ⟨_, h⟩ | ⟨_, h⟩ | ⟨_, h⟩ | ⟨_, _, h⟩ | ⟨_, h⟩ | ⟨_, h⟩ | ⟨_, h⟩ | ⟨_, h⟩ <;> rw [h] <;>
    simp [acqLabel, acqLabelLast, acqSdi, acqSdiLast, acqData, acqDataLast, acqSsm, acqSsmLast, acqParity]
@[simp] theorem fieldOp_wordStart (k : BitIndex) (s : State) : (fieldOp k s).wordStart = s.wordStart := by
  rcases fieldOp_cases k s with ⟨_, h⟩ | ⟨_, h⟩ | ⟨_, h⟩ | ⟨_, h⟩ | ⟨_, _, h⟩ | ⟨_, h⟩ | ⟨_, h⟩ | ⟨_, h⟩ | ⟨_, h⟩ <;> rw [h] <;>
    simp [acqLabel, acqLabelLast, acqSdi, acqSdiLast, acqData, acqDataLast, acqSsm, acqSsmLast, acqParity]
@[simp] theorem fieldOp_fieldStart (k : BitIndex) (s : State) : (fieldOp k s).fieldStart = s.fieldStart := by
  rcases fieldOp_cases k s with ⟨_, h⟩ | ⟨_, h⟩ | ⟨_, h⟩ | ⟨_, h⟩ | ⟨_, _, h⟩ | ⟨_, h⟩ | ⟨_, h⟩ | ⟨_, h⟩ | ⟨_, h⟩ <;> rw [h] <;>
    simp [acqLabel, acqLabelLast, acqSdi, acqSdiLast, acqData, acqDataLast, acqSsm, acqSsmLast, acqParity]
@[simp] theorem fieldOp_faultCode (k : BitIndex) (s : State) : (fieldOp k s).faultCode = s.faultCode := by
  rcases fieldOp_cases k s with ⟨_, h⟩ | ⟨_, h⟩ | ⟨_, h⟩ | ⟨_, h⟩ | ⟨_, _, h⟩ | ⟨_, h⟩ | ⟨_, h⟩ | ⟨_, h⟩ | ⟨_, h⟩ <;> rw [h] <;>
    simp [acqLabel, acqLabelLast, acqSdi, acqSdiLast, acqData, acqDataLast, acqSsm, acqSsmLast, acqParity]
@[simp] theorem fieldOp_stream (k : BitIndex) (s : State) : (fieldOp k s).stream = s.stream := by
  rcases fieldOp_cases k s with ⟨_, h⟩ | ⟨_, h⟩ | ⟨_, h⟩ | ⟨_, h⟩ | ⟨_, _, h⟩ | ⟨_, h⟩ | ⟨_, h⟩ | ⟨_, h⟩ | ⟨_, h⟩ <;> rw [h] <;>
    simp [acqLabel, acqLabelLast, acqSdi, acqSdiLast, acqData, acqDataLast, acqSsm, acqSsmLast, acqParity]
@[simp] theorem fieldOp_earlier (k : BitIndex) (s : State) : (fieldOp k s).earlier = s.earlier := by
  rcases fieldOp_cases k s with ⟨_, h⟩ | ⟨_, h⟩ | ⟨_, h⟩ | ⟨_, h⟩ | ⟨_, _, h⟩ | ⟨_, h⟩ | ⟨_, h⟩ | ⟨_, h⟩ | ⟨_, h⟩ <;> rw [h] <;>
    simp [acqLabel, acqLabelLast, acqSdi, acqSdiLast, acqData, acqDataLast, acqSsm, acqSsmLast, acqParity]
@[simp] theorem fieldOp_host (k : BitIndex) (s : State) : (fieldOp k s).host = s.host := by
  rcases fieldOp_cases k s with ⟨_, h⟩ | ⟨_, h⟩ | ⟨_, h⟩ | ⟨_, h⟩ | ⟨_, _, h⟩ | ⟨_, h⟩ | ⟨_, h⟩ | ⟨_, h⟩ | ⟨_, h⟩ <;> rw [h] <;>
    simp [acqLabel, acqLabelLast, acqSdi, acqSdiLast, acqData, acqDataLast, acqSsm, acqSsmLast, acqParity]

end Sys2Proof.Machine
end

