-- ==== Sys2Proof/Laws/PerInstr.lean ====
section
/-! SUPPORT. Per instruction: the encoder's selector lies in its row of spec/opcode_table.json, that is in the row's
format and with the row's match under the row's mask. -/

namespace Sys2Proof.Laws.EncodesRow

/-- The formats of spec/opcode_table.json. -/
inductive Format where
  | dispatch16
  | acqK
  | cfgCtrl
  | signMode
  deriving DecidableEq, Repr

/-- A selector's format and the number its bits make. -/
def bits : Selector → Format × Nat
  | .dispatch w => (.dispatch16, w.toNat)
  | .acq k => (.acqK, k.toNat)
  | .ctrl c => (.cfgCtrl, c.toNat)
  | .signMode m => (.signMode, m.toNat)
  | .parityUnit k => (.acqK, k.toNat)

/-- The number `w` matches a row of that format: one of its (match, mask) pairs. -/
def rowMatches (f : Format) (pairs : List (Nat × Nat)) (sel : Selector) : Bool :=
  decide ((bits sel).1 = f) && pairs.any (fun p => (bits sel).2 &&& p.2 == p.1)

/-- The row of the table, "match" and "mask" as spec/opcode_table.json gives them. -/
def row : Instr → Format × List (Nat × Nat)
  | .trWait => (.dispatch16, [(0x0000, 0xE080)])
  | .trEdge => (.dispatch16, [(0x0080, 0xE080)])
  | .trHold => (.dispatch16, [(0x2000, 0xE040)])
  | .trMeasure => (.dispatch16, [(0x2040, 0xE040)])
  | .syncLow => (.dispatch16, [(0x4020, 0xE0A0)])
  | .syncBreak => (.dispatch16, [(0x4000, 0xE0A0)])
  | .syncShort => (.dispatch16, [(0x4080, 0xE090)])
  | .syncFire => (.dispatch16, [(0x4090, 0xE090)])
  | .bitWait => (.dispatch16, [(0x6000, 0xE088)])
  | .bitEdge _ => (.dispatch16, [(0x6080, 0xE080)])
  | .bitTimeout _ => (.dispatch16, [(0x6008, 0xE088)])
  | .faultHold => (.dispatch16, [(0xE000, 0xE000)])
  | .acqLabel _ => (.acqK, [(0b00000, 0b11100), (0b00100, 0b11110), (0b00110, 0b11111)])
  | .acqLabelLast => (.acqK, [(0b00111, 0b11111)])
  | .acqSdi => (.acqK, [(0b01000, 0b11111)])
  | .acqSdiLast => (.acqK, [(0b01001, 0b11111)])
  | .acqData _ => (.acqK, [(0b01010, 0b11110), (0b01100, 0b11100), (0b10000, 0b11000), (0b11000, 0b11100)])
  | .acqDataLast => (.acqK, [(0b11100, 0b11111)])
  | .acqSsm => (.acqK, [(0b11101, 0b11111)])
  | .acqSsmLast => (.acqK, [(0b11110, 0b11111)])
  | .acqParity => (.acqK, [(0b11111, 0b11111)])
  | .resolveStatic => (.cfgCtrl, [(0b010, 0b110)])
  | .resolveTable => (.cfgCtrl, [(0b110, 0b110)])
  | .scaleUnsigned => (.signMode, [(0b00, 0b11)])
  | .scaleSigned => (.signMode, [(0b01, 0b11)])
  | .scaleTwos => (.signMode, [(0b10, 0b11)])
  | .parityCheck => (.acqK, [(0b11111, 0b11111)])

/-- The encoding of a well-formed instruction lies in its row. -/
def Statement (i : Instr) : Prop :=
  i.wf = true → rowMatches (row i).1 (row i).2 (encode i) = true

theorem trWait : Statement .trWait := fun _ => by decide
theorem trEdge : Statement .trEdge := fun _ => by decide
theorem trHold : Statement .trHold := fun _ => by decide
theorem trMeasure : Statement .trMeasure := fun _ => by decide
theorem syncLow : Statement .syncLow := fun _ => by decide
theorem syncBreak : Statement .syncBreak := fun _ => by decide
theorem syncShort : Statement .syncShort := fun _ => by decide
theorem syncFire : Statement .syncFire := fun _ => by decide
theorem bitWait : Statement .bitWait := fun _ => by decide
theorem bitEdge (k : BitIndex) : Statement (.bitEdge k) := fun _ => by revert k; decide
theorem bitTimeout (k : BitIndex) : Statement (.bitTimeout k) := fun _ => by revert k; decide
theorem faultHold : Statement .faultHold := fun _ => by decide
theorem acqLabel (k : BitIndex) : Statement (.acqLabel k) := by unfold Statement; revert k; decide
theorem acqLabelLast : Statement .acqLabelLast := fun _ => by decide
theorem acqSdi : Statement .acqSdi := fun _ => by decide
theorem acqSdiLast : Statement .acqSdiLast := fun _ => by decide
theorem acqData (k : BitIndex) : Statement (.acqData k) := by unfold Statement; revert k; decide
theorem acqDataLast : Statement .acqDataLast := fun _ => by decide
theorem acqSsm : Statement .acqSsm := fun _ => by decide
theorem acqSsmLast : Statement .acqSsmLast := fun _ => by decide
theorem acqParity : Statement .acqParity := fun _ => by decide
theorem resolveStatic : Statement .resolveStatic := fun _ => by decide
theorem resolveTable : Statement .resolveTable := fun _ => by decide
theorem scaleUnsigned : Statement .scaleUnsigned := fun _ => by decide
theorem scaleSigned : Statement .scaleSigned := fun _ => by decide
theorem scaleTwos : Statement .scaleTwos := fun _ => by decide
theorem parityCheck : Statement .parityCheck := fun _ => by decide

end Sys2Proof.Laws.EncodesRow
end

