-- ==== Sys2Proof/Laws/Step.lean ====
section
/-! SUPPORT. What one step can do, said once. -/

namespace Sys2Proof.Machine

/-- The fields of the dispatch word the block forms (30_encoding.md R100). -/
theorem dispatchWord_ph (s : State) : s.dispatchWord.ph = s.phase.code := by
  apply BitVec.eq_of_getLsbD_eq
  intro i hi
  rw [DispatchWord.ph, State.dispatchWord]
  simp only [BitVec.getLsbD_extractLsb', BitVec.getLsbD_append]
  have h : i = 0 ∨ i = 1 ∨ i = 2 := by omega
  rcases h with rfl | rfl | rfl <;> simp

theorem dispatchWord_k (s : State) : s.dispatchWord.k = s.k := by
  apply BitVec.eq_of_getLsbD_eq
  intro i hi
  rw [DispatchWord.k, State.dispatchWord]
  simp only [BitVec.getLsbD_extractLsb', BitVec.getLsbD_append]
  have h : i = 0 ∨ i = 1 ∨ i = 2 ∨ i = 3 ∨ i = 4 := by omega
  rcases h with rfl | rfl | rfl | rfl | rfl <;> simp

theorem dispatchWord_pad (s : State) : s.dispatchWord.extractLsb' 0 3 = 0#3 := by
  apply BitVec.eq_of_getLsbD_eq
  intro i hi
  rw [State.dispatchWord]
  simp only [BitVec.getLsbD_extractLsb', BitVec.getLsbD_append]
  have h : i = 0 ∨ i = 1 ∨ i = 2 := by omega
  rcases h with rfl | rfl | rfl <;> simp

theorem dispatchWord_rise (s : State) : s.dispatchWord.getLsbD 7 = s.rise := by
  rw [State.dispatchWord]; simp only [BitVec.getLsbD_append]; simp

theorem dispatchWord_fall (s : State) : s.dispatchWord.getLsbD 6 = s.fall := by
  rw [State.dispatchWord]; simp only [BitVec.getLsbD_append]; simp

theorem dispatchWord_low (s : State) : s.dispatchWord.getLsbD 5 = s.low := by
  rw [State.dispatchWord]; simp only [BitVec.getLsbD_append]; simp

theorem dispatchWord_gapOk (s : State) : s.dispatchWord.getLsbD 4 = s.gapOk := by
  rw [State.dispatchWord]; simp only [BitVec.getLsbD_append]; simp

theorem dispatchWord_tmo (s : State) : s.dispatchWord.getLsbD 3 = s.tmo := by
  rw [State.dispatchWord]; simp only [BitVec.getLsbD_append]; simp

/-- Every dispatch word the block forms is a row of the table (30_encoding.md R100): `step` never meets one it
cannot decode. -/
theorem formed_word_decodes (s : State) : ∃ i, decodeDispatch s.dispatchWord = .ok i := by
  unfold decodeDispatch
  rw [dispatchWord_pad, dispatchWord_ph, dispatchWord_rise, dispatchWord_fall, dispatchWord_low, dispatchWord_gapOk,
    dispatchWord_tmo]
  generalize s.dispatchWord.k = j
  cases s.phase <;> simp only [Phase.code] <;> cases s.rise <;> cases s.fall <;> cases s.low <;> cases s.gapOk <;>
    cases s.tmo <;> exact ⟨_, rfl⟩

/-- What the host's next interaction can lead to, for a step that answers a next state. -/
theorem step_next_cases {s t : State} (h : step s = .next t) :
    (s.host = [] ∧ t = s) ∨
    (∃ level rest, s.host = .rst level :: rest ∧ driveRst level { s with host := rest, out := [] } = .next t) ∨
    (∃ c rest, s.host = .config c :: rest ∧ driveConfig c { s with host := rest, out := [] } = .next t) ∨
    (∃ x rest, s.host = .sample x :: rest ∧ s.rst = true ∧ t = { s with host := rest, out := [], line := x }) ∨
    (∃ x rest i u, s.host = .sample x :: rest ∧ s.rst = false ∧
      decodeDispatch (State.dispatchWord { s with host := rest, out := [], line := x }) = .ok i ∧
      exec i { s with host := rest, out := [], line := x } = .next u ∧
      t = { u with stream := u.stream ++ u.out }) := by
  unfold step fetch at h
  split at h
  · rename_i hf
    split at hf <;> rename_i hh
    · simp at h; exact .inl ⟨hh, h.symm⟩
    · simp at hf
    · simp at hf
    · unfold presentSample at hf
      dsimp only at hf
      split at hf
      · simp at hf
      · split at hf <;> simp at hf
  · rename_i r hf
    split at hf <;> rename_i hh
    · simp at hf
    · injection hf with hf; subst hf
      exact .inr (.inl ⟨_, _, hh, h⟩)
    · injection hf with hf; subst hf
      exact .inr (.inr (.inl ⟨_, _, hh, h⟩))
    · unfold presentSample at hf
      dsimp only at hf
      split at hf
      · rename_i hr
        injection hf with hf; subst hf
        injection h with h
        exact .inr (.inr (.inr (.inl ⟨_, _, hh, hr, h.symm⟩)))
      · split at hf <;> simp at hf
  · rename_i i u hf
    split at hf <;> rename_i hh
    · simp at hf
    · simp at hf
    · simp at hf
    · unfold presentSample at hf
      dsimp only at hf
      split at hf
      · simp at hf
      · rename_i hr
        split at hf
        · rename_i j hd
          injection hf with h1 h2; subst h1; subst h2
          obtain ⟨v, hv, ht⟩ := (deliver_next_iff _ _).1 h
          exact .inr (.inr (.inr (.inr ⟨_, _, _, v, hh, by simpa using hr, hd, hv, ht⟩)))
        · simp at hf
  · simp at h

end Sys2Proof.Machine
end

