-- ==== Sys2Proof/Tests/Slice0.lean ====
section
/-! SUPPORT. Tests. Expected values are the spec's own: spec/95_test_vectors.md section 2 and the examples of the
operation rules. The last part gives each obligation that has hypotheses a state and operands that meet them. -/

namespace Sys2Proof.Tests

open Sys2Proof Sys2Proof.Machine

/-! ## Well-formedness smoke tests -/

/-- 30_encoding.md R103: ACQ_LABEL serves 0 to 6, ACQ_DATA 10 to 27. -/
theorem test_wf_instr :
    (Instr.acqLabel 6#5).wf = true ∧ (Instr.acqLabel 7#5).wf = false ∧ (Instr.acqData 9#5).wf = false ∧
    (Instr.acqData 10#5).wf = true ∧ (Instr.acqData 27#5).wf = true ∧ (Instr.acqData 28#5).wf = false := by decide

/-- `CFG` with nothing written but SR_VALID = 1 and a rate of 1.0 is well formed. -/
theorem test_wf_bare : Cfg.bare.check = none := by decide

/-- 10_state.md R34, WF_CTRL: a reserved CTRL bit. -/
theorem test_wf_ctrl : { Cfg.bare with ctrl := 0x21#8 }.check = some .wfCtrl := by decide

/-- WF_RATE: zero, a negative rate, an infinity and a NaN are refused, and without SR_VALID none is. -/
theorem test_wf_rate :
    { Cfg.bare with sampleRate := 0#64 }.check = some .wfRate ∧
    { Cfg.bare with sampleRate := 0xBFF0000000000000#64 }.check = some .wfRate ∧
    { Cfg.bare with sampleRate := 0x7FF0000000000000#64 }.check = some .wfRate ∧
    { Cfg.bare with sampleRate := 0x7FF8000000000000#64 }.check = some .wfRate ∧
    { Cfg.bare with ctrl := 0x00#8, sampleRate := 0#64 }.check = none := by decide

/-- Static decoding: address 5, any identifier, window 11 to 14, Unsigned, LSB weight 2.0, name 80 ("P" of P2). -/
def staticCfg : Cfg :=
  { Cfg.bare with
    ctrl := 0x03#8, stKey := 0b100_000000101#12, stWin := 0b00_01110_01011#12, stLsb := 0x4000000000000000#64,
    stName := ⟨80⟩ }

/-- WF_ST_KEY: address 8 is no display value; identifier 5 is over 4. -/
theorem test_wf_st_key :
    staticCfg.check = none ∧
    { staticCfg with stKey := 0b100_000001000#12 }.check = some .wfStKey ∧
    { staticCfg with stKey := 0b101_000000101#12 }.check = some .wfStKey := by decide

/-- WF_ST_WIN: 95_test_vectors.md section 2.10, ST_FIRST = 15 with ST_LAST = 12, and ST_SMODE = 3. -/
theorem test_wf_st_win :
    { staticCfg with stWin := 0b00_01100_01111#12 }.check = some .wfStWin ∧
    { staticCfg with stWin := 0b11_01110_01011#12 }.check = some .wfStWin := by decide

/-- The LUT entries of 95_test_vectors.md section 3, P3. -/
def rowA : LutEntry := ⟨⟨65⟩, 5#9, 2#2, 11#5, 14#5, 1#2, 0x4000000000000000#64⟩
def rowB : LutEntry := ⟨⟨66⟩, 5#9, 2#2, 11#5, 14#5, 2#2, 0x4000000000000000#64⟩
def rowC : LutEntry := ⟨⟨67⟩, 7#9, 0#2, 20#5, 28#5, 2#2, 0x3FE0000000000000#64⟩

/-- The same as the resolver returns them, fields written out. -/
def entryA : Entry := ⟨⟨65⟩, 5#9, 2#3, 11#5, 14#5, 1#2, 0x4000000000000000#64⟩
def entryB : Entry := ⟨⟨66⟩, 5#9, 2#3, 11#5, 14#5, 2#2, 0x4000000000000000#64⟩
def entryC : Entry := ⟨⟨67⟩, 7#9, 0#3, 20#5, 28#5, 2#2, 0x3FE0000000000000#64⟩

/-- The table configuration of P3. -/
def tableCfg : Cfg := { Cfg.bare with ctrl := 0x0F#8, lut := [rowA, rowB, rowC] }

/-- WF_LUT: an address that is no display value, a window past 29, a mode over 2; unchecked without TBL_PRESENT. -/
theorem test_wf_lut :
    tableCfg.check = none ∧
    { tableCfg with lut := [rowA, { rowB with address := 8#9 }] }.check = some .wfLut ∧
    { tableCfg with lut := [{ rowA with lastBit := 30#5 }] }.check = some .wfLut ∧
    { tableCfg with lut := [{ rowA with signMode := 3#2 }] }.check = some .wfLut ∧
    { tableCfg with ctrl := 0x07#8, lut := [{ rowA with signMode := 3#2 }] }.check = none := by decide

/-- 30_encoding.md R95: a LUT entry's identifier has no value over 3, in any configuration. -/
theorem test_lut_identifier : rowA.identifier.toNat ≤ 3 ∧ { rowA with identifier := 3#2 }.entry.identifier = 3#3 := by
  decide

/-! ## Decoding, every constructor from a word written out from 30_encoding.md section 6 -/

theorem test_decode_timing :
    decodeDispatch 0b000_00000_0_0_1_0_0_000#16 = .ok .trWait ∧
    decodeDispatch 0b000_00000_1_0_0_0_0_000#16 = .ok .trEdge ∧
    decodeDispatch 0b001_00000_1_0_0_0_0_000#16 = .ok .trHold ∧
    decodeDispatch 0b001_00000_0_1_1_0_0_000#16 = .ok .trMeasure := by decide

theorem test_decode_sync :
    decodeDispatch 0b010_00000_0_1_1_1_1_000#16 = .ok .syncLow ∧
    decodeDispatch 0b010_00000_0_0_0_1_0_000#16 = .ok .syncBreak ∧
    decodeDispatch 0b010_00000_1_1_0_0_1_000#16 = .ok .syncShort ∧
    decodeDispatch 0b010_00000_1_0_0_1_0_000#16 = .ok .syncFire := by decide

theorem test_decode_bit :
    decodeDispatch 0b011_00001_0_1_1_1_0_000#16 = .ok .bitWait ∧
    decodeDispatch 0b011_10000_1_0_0_0_1_000#16 = .ok (.bitEdge 16#5) ∧
    decodeDispatch 0b011_01101_0_0_1_0_1_000#16 = .ok (.bitTimeout 13#5) ∧
    decodeDispatch 0b111_11111_1_1_1_1_1_000#16 = .ok .faultHold := by decide

/-- Reserved phases and a nonzero pad are refused by name. -/
theorem test_decode_reserved :
    decodeDispatch 0b100_00000_0_0_0_0_0_000#16 = .error .reservedPhase ∧
    decodeDispatch 0b101_00000_1_1_1_1_1_000#16 = .error .reservedPhase ∧
    decodeDispatch 0b110_00000_0_0_0_0_0_000#16 = .error .reservedPhase ∧
    decodeDispatch 0b000_00000_0_0_0_0_0_001#16 = .error .padNotZero ∧
    decode (.signMode 0b11#2) = .error .reservedSignMode ∧
    decode (.ctrl 0b101#3) = .error .valueDecodingOff ∧
    decode (.parityUnit 0b11110#5) = .error .notEndOfWord := by decide

theorem test_decode_field_ops :
    decode (.acq 0b00000#5) = .ok (.acqLabel 0#5) ∧ decode (.acq 0b00110#5) = .ok (.acqLabel 6#5) ∧
    decode (.acq 0b00111#5) = .ok .acqLabelLast ∧ decode (.acq 0b01000#5) = .ok .acqSdi ∧
    decode (.acq 0b01001#5) = .ok .acqSdiLast ∧ decode (.acq 0b01010#5) = .ok (.acqData 10#5) ∧
    decode (.acq 0b11011#5) = .ok (.acqData 27#5) ∧ decode (.acq 0b11100#5) = .ok .acqDataLast ∧
    decode (.acq 0b11101#5) = .ok .acqSsm ∧ decode (.acq 0b11110#5) = .ok .acqSsmLast ∧
    decode (.acq 0b11111#5) = .ok .acqParity := by decide

theorem test_decode_units :
    decode (.ctrl 0b011#3) = .ok .resolveStatic ∧ decode (.ctrl 0b111#3) = .ok .resolveTable ∧
    decode (.signMode 0b00#2) = .ok .scaleUnsigned ∧ decode (.signMode 0b01#2) = .ok .scaleSigned ∧
    decode (.signMode 0b10#2) = .ok .scaleTwos ∧ decode (.parityUnit 0b11111#5) = .ok .parityCheck := by decide

/-! ## The table's numbers, and the step that runs them first after reset -/

theorem test_table_words :
    decodeTableWord 16 0x4090 = some .syncFire ∧ decodeTableWord 16 0x7F80 = some (.bitEdge 31#5) ∧
    decodeTableWord 8 28 = some .acqDataLast ∧ decodeTableWord 8 3 = some (.acqLabel 3#5) ∧
    decodeTableWord 8 6 = some .resolveTable ∧ decodeTableWord 8 1 = some .scaleSigned ∧
    decodeTableWord 2 2 = some .scaleTwos ∧ decodeTableWord 3 2 = some .resolveStatic ∧
    decodeTableWord 16 0x8000 = none ∧ decodeTableWord 8 32 = none := by decide

/-- The operation the next step runs. -/
def runs (s : State) : Option Instr :=
  match fetch s with
  | .run i _ => some i
  | _ => none

/-- Every dispatch row runs as the first operation after reset. -/
theorem test_fetch_dispatch_rows :
    [0x0000, 0x0080, 0x2000, 0x2040, 0x4020, 0x4000, 0x4080, 0x4090, 0x6000, 0x6180, 0x6108, 0xE000].map
        (fun w => runs (State.reset.withFetchWord 16 w)) =
      [some .trWait, some .trEdge, some .trHold, some .trMeasure, some .syncLow, some .syncBreak, some .syncShort,
        some .syncFire, some .bitWait, some (.bitEdge 1#5), some (.bitTimeout 1#5), some .faultHold] := by decide

/-- A field operation's row runs by acquiring its bit. -/
theorem test_fetch_field_rows :
    [5, 7, 8, 9, 10, 27, 28, 29, 30, 31].map (fun w => runs (State.reset.withFetchWord 8 w)) =
      [5, 7, 8, 9, 10, 27, 28, 29, 30, 31].map (fun w => some (.bitEdge (BitVec.ofNat 5 w))) := by decide

/-- What `f` sees of the next state. -/
def peek {α : Type} (r : Result) (f : State → α) : Option α :=
  match r with
  | .next t => some (f t)
  | _ => none

def answersNext (r : Result) : Bool := (peek r (fun _ => ())).isSome

theorem next_of_answersNext {r : Result} (h : answersNext r = true) : ∃ t, r = .next t := by
  cases r with
  | next t => exact ⟨t, rfl⟩
  | fault e => cases h
  | refused e => cases h

/-- Every row's step from reset answers a next state, the unit rows with the effect of their unit. -/
theorem test_fetch_unit_rows :
    peek (step (State.reset.withFetchWord 8 0)) (fun t => t.out.map Event.kind) = some [0, 6, 3, 7] ∧
    peek (step (State.reset.withFetchWord 8 1)) (fun t => t.out.map Event.kind) = some [0, 6, 3, 7] ∧
    peek (step (State.reset.withFetchWord 2 2)) (fun t => t.out.map Event.kind) = some [0, 6, 3, 7] ∧
    peek (step (State.reset.withFetchWord 8 2)) (fun t => t.sel.isSome) = some false ∧
    peek (step (State.reset.withFetchWord 8 6)) (fun t => t.sel.isSome) = some false ∧
    peek (step (State.reset.withFetchWord 8 31)) (fun t => t.out.map Event.kind) = some [0, 6, 5, 8] := by
  decide +kernel

/-! ## States of the vectors -/

/-- A session of `phase` whose previous sample is `p` and whose next sample is `c`, at index `idx`. -/
def at_ (phase : Phase) (idx : Nat) (p c : Sample) : State :=
  { State.reset with phase := phase, idx := idx, prev := some p, line := c, host := [.sample c] }

/-- In `SYNC` at `h = 2`, threshold 12, with a both-low run of `n`. -/
def syncAt (idx n : Nat) (p c : Sample) : State := { at_ .sync idx p c with h := 2, sR := 4, runLen := n }

/-- In `BIT` at `h = 2` waiting for bit `k`, the previous bit at 26, the word and field from 18. -/
def bitAt (k : BitIndex) (idx : Nat) (p c : Sample) : State :=
  { at_ .bit idx p c with h := 2, sR := 4, k := k, eLast := 26, wordStart := 18, fieldStart := 18 }

/-! ## Edge detector, 95_test_vectors.md section 2.1 -/

theorem test_edges :
    [(Sample.N, Sample.N), (.N, .H), (.H, .N), (.H, .L), (.H, .X), (.L, .X), (.X, .N), (.X, .H), (.X, .X)].map
        (fun q => ((at_ .sync 3 q.1 q.2).rise, (at_ .sync 3 q.1 q.2).fall, (at_ .sync 3 q.1 q.2).low)) =
      [(false, false, true), (true, false, false), (false, true, true), (true, true, false), (true, false, false),
        (true, false, false), (false, true, true), (false, true, false), (false, false, false)] := by decide

/-- The first sample of a session is never an edge. -/
theorem test_first_sample :
    ({ State.reset with line := .H }.rise, { State.reset with line := .X }.fall, State.reset.low) =
      (false, false, true) := by decide

/-! ## Bit-timing recovery, section 2.2 -/

/-- `N*4 H` from reset. -/
theorem test_tr_edge :
    peek (step (at_ .trRise 4 .N .H)) (fun t => (t.sR, t.phase, t.idx, t.prev, t.out)) =
      some (4, .trFall, 5, some .H, []) := by decide

theorem test_tr_wait :
    peek (step { State.reset with host := [.sample .H] }) (fun t => (t.phase, t.idx, t.prev, t.sR)) =
      some (.trRise, 1, some .H, 0) := by decide

/-- `N H X N`: sample 2 rises on `neg`, TR_HOLD. -/
theorem test_tr_hold :
    peek (step { at_ .trFall 2 .H .X with sR := 1 }) (fun t => (t.phase, t.sR, t.h, t.idx)) =
      some (.trFall, 1, 0, 3) := by decide

/-- `N*4 H*2 N`: `h = 2`, `runLen = 1`. -/
theorem test_tr_measure :
    peek (step { at_ .trFall 6 .H .N with sR := 4 }) (fun t => (t.h, t.phase, t.runLen, t.idx)) =
      some (2, .sync, 1, 7) := by decide

/-- `N H*3 L`: the fall is on `pos`, the sample is not LOW. -/
theorem test_tr_measure_hi_lo :
    peek (step { at_ .trFall 4 .H .L with sR := 1 }) (fun t => (t.h, t.phase, t.runLen)) =
      some (3, .sync, 0) := by decide

/-! ## Gap detector, section 2.3 -/

theorem test_sync_low :
    peek (step (syncAt 13 1 .N .N)) (fun t => (t.runLen, t.idx, t.phase)) = some (2, 14, .sync) := by decide

/-- The second sample of a pulse breaks the run. -/
theorem test_sync_break :
    peek (step (syncAt 13 0 .H .H)) (fun t => (t.runLen, t.phase)) = some (0, .sync) ∧
    runs (syncAt 15 3 .X .X) = some .syncBreak := by decide

/-- `N*4 H*2 N*11 H`: 11 is one short of the threshold. -/
theorem test_sync_short :
    runs (syncAt 17 11 .N .H) = some .syncShort ∧
    peek (step (syncAt 17 11 .N .H)) (fun t => (t.runLen, t.phase, t.out)) = some (0, .sync, []) := by decide

/-- `N*4 H*2 N*12 H`: SYNC_FIRE at sample 18. -/
theorem test_sync_fire :
    peek (step (syncAt 18 12 .N .H)) (fun t => (t.phase, t.k, t.eLast, t.wordStart)) = some (.bit, 1#5, 18, 18) ∧
    peek (step (syncAt 18 12 .N .H)) (fun t => (t.labelRaw, t.runLen, t.out)) =
      some (1#8, 12, [.bitValue 18 20 1#1, .bitOrdinal 18 20 1]) := by decide

/-- With `L` bit 0 is 0, with `X` it is 1. -/
theorem test_sync_fire_polarity :
    peek (step (syncAt 18 12 .N .L)) (fun t => t.labelRaw) = some 0#8 ∧
    peek (step (syncAt 18 12 .N .X)) (fun t => t.labelRaw) = some 1#8 := by decide

/-! ## Bit wait and acquisition, section 2.4: `eLast = 26`, bound 32 -/

theorem test_bit_wait :
    runs (bitAt 12#5 28 .H .N) = some .bitWait ∧ runs (bitAt 12#5 31 .N .N) = some .bitWait ∧
    peek (step (bitAt 12#5 28 .H .N)) (fun t => (t.k, t.eLast, t.idx, t.out)) = some (12#5, 26, 29, []) := by decide

/-- `E_k = 30`, `b_k = 0`, `k = 12`: the per-bit events of section 2.4. -/
theorem test_bit_edge :
    runs (bitAt 12#5 30 .N .L) = some (.bitEdge 12#5) ∧
    peek (step (bitAt 12#5 30 .N .L)) (fun t => (t.k, t.eLast, t.out)) =
      some (13#5, 30, [.bitValue 30 32 0#1, .bitOrdinal 30 32 13]) := by decide

/-- An edge at the bound, an early edge, and `neg` rising while `pos` is high. -/
theorem test_bit_edge_early_and_late :
    runs (bitAt 12#5 32 .N .H) = some (.bitEdge 12#5) ∧ runs (bitAt 12#5 28 .N .L) = some (.bitEdge 12#5) ∧
    peek (step (bitAt 12#5 27 .H .X)) (fun t => t.out) =
      some [.bitValue 27 29 1#1, .bitOrdinal 27 29 13] := by decide

/-- `H N*5`: BIT_TIMEOUT at 32 reads 0. -/
theorem test_bit_timeout :
    runs (bitAt 12#5 32 .N .N) = some (.bitTimeout 12#5) ∧
    peek (step (bitAt 12#5 32 .N .N)) (fun t => (t.k, t.eLast, t.data, t.out)) =
      some (13#5, 32, 0#19, [.bitValue 32 34 0#1, .bitOrdinal 32 34 13]) := by decide

/-- `H H*5`: `pos` held high reads 1 at the bound. -/
theorem test_bit_timeout_high :
    runs (bitAt 12#5 32 .H .H) = some (.bitTimeout 12#5) ∧
    peek (step (bitAt 12#5 32 .H .H)) (fun t => t.data) = some 4#19 := by decide

/-! ## Field operations, section 2.5 and the examples of 42_field_extractor.md R170 to R178 -/

theorem test_label_display :
    [0#8, 5#8, 7#8, 8#8, 9#8, 56#8, 63#8, 64#8, 127#8, 128#8, 160#8, 192#8, 255#8].map disp =
      [0, 5, 7, 10, 11, 70, 77, 100, 177, 200, 240, 300, 377] ∧ undisp 377 = 255 := by decide

theorem test_acq_label :
    peek (exec (.acqLabel 2#5) (bitAt 2#5 30 .N .H)) (fun t => (t.labelRaw, t.k)) = some (4#8, 3#5) := by decide

/-- Label (26, 56, 0, 0) of P1, and the display of 0o240 (X7). -/
theorem test_acq_label_last :
    peek (exec .acqLabelLast { bitAt 7#5 54 .N .L with fieldStart := 26 }) (fun t => (t.out, t.k)) =
      some ([.label 26 56 0#8 0], 8#5) ∧
    peek (exec .acqLabelLast { bitAt 7#5 54 .N .H with fieldStart := 26, labelRaw := 32#8 }) (fun t => t.out) =
      some [.label 26 56 160#8 240] := by decide

theorem test_acq_sdi :
    peek (exec .acqSdi (bitAt 8#5 30 .N .H)) (fun t => (t.sdi, t.k)) = some (1#2, 9#5) := by decide

/-- Without DEC_EN nothing is resolved. -/
theorem test_acq_sdi_last :
    peek (exec .acqSdiLast { bitAt 9#5 62 .N .H with fieldStart := 58 }) (fun t => (t.sdi, t.out, t.sel, t.k)) =
      some (2#2, [.sdi 58 64 2#2], none, 10#5) := by decide

/-- Table mode, label 5, SDI 2: entry A wins over B (P3). -/
theorem test_acq_sdi_last_resolves :
    peek (exec .acqSdiLast { bitAt 9#5 62 .N .H with cfg := tableCfg, labelRaw := 5#8 }) (fun t => t.sel) =
      some (some entryA) := by decide

theorem test_acq_data :
    peek (exec (.acqData 12#5) (bitAt 12#5 30 .N .H)) (fun t => (t.data, t.k)) = some (4#19, 13#5) := by decide

theorem test_acq_data_last :
    peek (exec .acqDataLast { bitAt 28#5 138 .N .H with fieldStart := 66, data := 0x3FFFF#19 })
        (fun t => (t.out, t.k)) =
      some ([.data 66 140 0x7FFFF#19], 29#5) := by decide

/-- P3, word 2: Value (246, 284, C, -1, true, -0.5), the stop defaulting to the Data end. -/
theorem test_acq_data_last_value :
    peek (exec .acqDataLast
        { bitAt 28#5 282 .N .H with fieldStart := 210, data := 0x3FFFF#19, sel := some entryC, phStart := some 246 })
        (fun t => t.out) =
      some [.data 210 284 0x7FFFF#19, .value 246 284 ⟨67⟩ (-1) true 0xBFE0000000000000#64] := by decide +kernel

theorem test_acq_ssm :
    peek (exec .acqSsm (bitAt 29#5 30 .N .H)) (fun t => (t.ssm, t.k)) = some (1#2, 30#5) := by decide

theorem test_acq_ssm_last :
    peek (exec .acqSsmLast { bitAt 30#5 146 .N .H with fieldStart := 142, ssm := 1#2 }) (fun t => (t.out, t.k)) =
      some ([.ssm 142 148 3#2], 31#5) := by decide

/-- P1: all fields 0, `b_31 = 1`; after an edge `runLen = 0`. -/
theorem test_acq_parity :
    peek (exec .acqParity { bitAt 31#5 150 .N .H with fieldStart := 150, wordStart := 26, eLast := 146 })
        (fun t => (t.out, t.k, t.phase, t.runLen, t.eLast)) =
      some ([.parity 150 152 1#1, .verdict 26 152 true], 0#5, .sync, 0, 146) := by decide

/-- After a timeout on a NULL line `runLen = 1`, and a word of zeros is "Er". -/
theorem test_acq_parity_timeout :
    peek (exec .acqParity { bitAt 31#5 107 .N .N with h := 1, fieldStart := 107, wordStart := 44 })
        (fun t => (t.out, t.runLen)) =
      some ([.parity 107 108 0#1, .verdict 44 108 false], 1) := by decide

/-! ## Value spans, section 2.6: `E_k = 26 + 4k` -/

/-- Signed window 11 to 14: `phStart` at E_10 = 66, `phStop` at E_15 = 86; Unsigned at E_14 = 82. -/
theorem test_capture :
    (capturePh 10#5 { bitAt 10#5 66 .N .H with sel := some entryA }).phStart = some 66 ∧
    (capturePh 15#5 { bitAt 15#5 86 .N .H with sel := some entryA }).phStop = some 86 ∧
    (capturePh 14#5 { bitAt 14#5 82 .N .H with sel := some entryA }).phStop = none ∧
    (capturePh 14#5 { bitAt 14#5 82 .N .H with sel := some { entryA with signMode := 0#2 } }).phStop = some 82 := by
  decide

/-! ## Value scaler, section 2.6 -/

/-- At bit 28 with the span (66, 82) captured, an entry and its data. -/
def scaleAt (e : Entry) (data : BitVec 19) : State :=
  { bitAt 28#5 138 .N .H with sel := some e, data := data, phStart := some 66, phStop := some 82 }

/-- A window and a weight, named 0. -/
def window (f l : BitVec 5) (w : Binary64) : Entry := ⟨⟨0⟩, 5#9, 2#3, f, l, 0#2, w⟩

def two : Binary64 := 0x4000000000000000#64
def one : Binary64 := 0x3FF0000000000000#64

theorem test_scale_unsigned :
    peek (exec .scaleUnsigned (scaleAt (window 11#5 14#5 two) 0x15#19)) (fun t => t.out) =
      some [.value 66 82 ⟨0⟩ 21 false 0x4045000000000000#64] := by decide +kernel

/-- 0.1 × 3 rounds to 0.30000000000000004, and a window ending at 29 reads 0 above the data field. -/
theorem test_scale_unsigned_corners :
    (unsignedStage (window 11#5 12#5 0x3FB999999999999A#64) 0x3#19).value 0x3FB999999999999A#64 =
      0x3FD3333333333334#64 ∧
    (unsignedStage (window 11#5 29#5 one) 0x7FFFF#19).count = 524287 := by decide +kernel

theorem test_scale_signed :
    peek (exec .scaleSigned (scaleAt (window 11#5 14#5 two) 0x15#19)) (fun t => t.out) =
      some [.value 66 82 ⟨0⟩ (-5) true 0xC024000000000000#64] := by decide +kernel

/-- A zero magnitude with the sign bit set is -0.0, or +0.0 with a negative weight. -/
theorem test_scale_signed_zero :
    (signedStage (window 11#5 14#5 two) 0x10#19).value two = 0x8000000000000000#64 ∧
    (signedStage (window 11#5 14#5 two) 0x10#19).value (F64.fneg two) = 0#64 ∧
    (signedStage (window 11#5 28#5 one) 0x7FFFF#19).count = -262143 ∧
    (signedStage (window 20#5 29#5 one) 0x7FFFF#19).count = 1023 := by decide +kernel

theorem test_scale_twos :
    peek (exec .scaleTwos (scaleAt (window 11#5 14#5 two) 0x15#19)) (fun t => t.out) =
      some [.value 66 82 ⟨0⟩ (-11) true 0xC036000000000000#64] := by decide +kernel

theorem test_scale_twos_corners :
    (twosStage (window 11#5 14#5 two) 0x10#19).count = -16 ∧ (twosStage (window 11#5 14#5 two) 0x1F#19).count = -1 ∧
    (twosStage (window 11#5 14#5 two) 0xF#19).count = 15 ∧
    (twosStage (window 11#5 28#5 one) 0x7FFFF#19).count = -1 := by decide +kernel

/-- Section 2.7: 90.0 over 11 to 18, 1.0 over 20 to 20, 512.0 over 11 to 29. -/
theorem test_weight :
    F64.divPow2 0x4056800000000000#64 7 = 0x3FE6800000000000#64 ∧ F64.divPow2 one 0 = one ∧
    F64.divPow2 0x4080000000000000#64 18 = 0x3F60000000000000#64 := by decide +kernel

/-! ## Parity, section 2.8 -/

/-- The five fields of a word value, as accumulated. -/
def accumulated (w : BitVec 32) : State :=
  { State.reset with
    labelRaw := w.extractLsb' 0 8, sdi := w.extractLsb' 8 2, data := w.extractLsb' 10 19, ssm := w.extractLsb' 29 2,
    par := w.extractLsb' 31 1 }

theorem test_parity_check :
    [0x80000000#32, 0#32, 1#32, 0x1605#32, 0xE0005605#32, 0x7FFFFFFF#32, 0xFFFFFFFF#32].map
        (fun w => peek (exec .parityCheck (accumulated w)) (fun t => t.out)) =
      [true, false, true, true, true, true, false].map (fun ok => some [.verdict 0 0 ok]) := by decide +kernel

/-! ## Resolver, section 2.9 -/

/-- A key `(disp, sdi)` under a configuration, for labels below 8. -/
def keyed (c : Cfg) (label : BitVec 8) (sdi : BitVec 2) : State :=
  { State.reset with cfg := c, stWeight := c.staticWeight, labelRaw := label, sdi := sdi }

theorem test_resolve_static :
    [(5#8, 0#2), (5#8, 3#2), (6#8, 2#2)].map
        (fun q => peek (exec .resolveStatic (keyed staticCfg q.1 q.2)) (fun t => t.sel.isSome)) =
      [some true, some true, some false] ∧
    [(5#8, 2#2), (5#8, 1#2)].map
        (fun q => peek (exec .resolveStatic (keyed { staticCfg with stKey := 0b010_000000101#12 } q.1 q.2))
          (fun t => t.sel.isSome)) =
      [some true, some false] := by decide

theorem test_resolve_table :
    [(5#8, 2#2), (5#8, 3#2), (7#8, 0#2)].map
        (fun q => peek (exec .resolveTable (keyed tableCfg q.1 q.2)) (fun t => t.sel)) =
      [some (some entryA), some none, some (some entryC)] ∧
    peek (exec .resolveTable (keyed { tableCfg with lut := [] } 5#8 2#2)) (fun t => t.sel) = some none := by decide

/-! ## Faults and reset, section 2.10 and P7 -/

/-- The reset line asserted with a configuration presented. -/
def inReset (c : Cfg) : State := { State.reset with rst := true, cfgIn := c, host := [.rst false] }

theorem test_reset_checks :
    [0x00#8, 0x06#8, 0x07#8, 0x05#8, 0x0F#8].map
        (fun c => peek (step (inReset { Cfg.bare with ctrl := c })) (fun t => (t.phase, t.faultCode, t.faultOut))) =
      [some (.fault, 1#2, true), some (.fault, 1#2, true), some (.fault, 2#2, true), some (.trRise, 0#2, false),
        some (.trRise, 0#2, false)] := by decide

/-- P7a: samples presented to a faulted session are not consumed. -/
theorem test_fault_hold :
    peek (step { State.reset with phase := .fault, faultCode := 1#2, host := [.sample .H] })
        (fun t => (t.phase, t.faultCode, t.idx, t.prev, t.out)) =
      some (.fault, 1#2, 0, none, []) := by decide

/-- A refused configuration gives no session. -/
theorem test_reset_refusal :
    step (inReset { staticCfg with stWin := 0b00_01100_01111#12 }) = .refused (.illFormedConfig .wfStWin) := rfl

/-- P2: the static weight is ST_LSB = 2.0. -/
theorem test_static_weight : peek (step (inReset staticCfg)) (fun t => t.stWeight) = some two := by decide

/-- Sink categories: the verdict is delivered as parity (30_encoding.md R111). -/
theorem test_category : (Event.verdict 26 152 true).category = .parity ∧ verdictText true = "Ok" := by decide

/-! ## Witnesses: a state and operands that meet the hypotheses of each obligation, clause by clause -/

/-- Witness of DecodeOfEncodeIsIdentity, at the ends of the operand ranges. -/
theorem test_witness_decode_of_encode :
    [Instr.acqLabel 0#5, .acqLabel 6#5, .acqData 10#5, .acqData 27#5, .bitEdge 0#5, .bitEdge 31#5, .bitTimeout 31#5,
      .parityCheck].map Instr.wf = List.replicate 8 true := by decide

/-- Witness of AcquiredBitRunsItsFieldOperation: each end of each range of `k`, DEC_EN, an entry of each mode. -/
theorem test_witness_acquired_bit :
    [(0#5 : BitIndex), 6#5, 7#5, 8#5, 9#5, 10#5, 27#5, 28#5, 29#5, 30#5, 31#5].map BitVec.toNat =
      [0, 6, 7, 8, 9, 10, 27, 28, 29, 30, 31] ∧
    (keyed staticCfg 5#8 2#2).cfg.decEn = true ∧ (keyed tableCfg 5#8 2#2).cfg.decEn = true ∧
    [window 11#5 14#5 two, entryA, entryB].map (fun e => ((scaleAt e 0x15#19).sel, e.signMode)) =
      [(some (window 11#5 14#5 two), 0#2), (some entryA, 1#2), (some entryB, 2#2)] := by decide

/-- Witness of InvalidSamplePassesThrough and of both clauses of EdgeAndLevelConditions. -/
theorem test_witness_edges :
    (at_ .sync 3 .N .X).line = ⟨true, true⟩ ∧ (at_ .sync 3 .N .X).prev = some ⟨false, false⟩ ∧
    State.reset.prev = none := by decide

/-- Witness of LabelDisplayIsBijective: the least and the greatest display value. -/
theorem test_witness_display : isDisplay 0 = true ∧ isDisplay 377 = true ∧ isDisplay 378 = false := by decide

/-- Witness of StepRunsDecodedInstruction. -/
theorem test_witness_step :
    (at_ .trRise 4 .N .H).rst = false ∧ (at_ .trRise 4 .N .H).host = .sample .H :: [] ∧
    decodeDispatch (State.dispatchWord { at_ .trRise 4 .N .H with host := [], out := [], line := .H }) = .ok .trEdge ∧
    Instr.trEdge.wf = true := by decide

/-- Witness of StoppedHostKeepsState. -/
theorem test_witness_stopped : State.reset.host = [] := by decide

/-- A faulted session with a sample presented. -/
def faulted : State := { State.reset with phase := .fault, faultCode := 1#2, host := [.sample .H] }

/-- Witness of FaultedSessionHoldsItsState. -/
theorem test_witness_faulted :
    faulted.phase = .fault ∧ faulted.rst = false ∧ faulted.host = .sample .H :: [] := by decide

/-- Witness of StepConsumesItsSample, NoFaultIsRaisedAfterReset and StreamOnlyGrows: a sample in a running session. -/
theorem test_witness_sample :
    (bitAt 12#5 30 .N .L).rst = false ∧ (bitAt 12#5 30 .N .L).host = .sample .L :: [] ∧
    (bitAt 12#5 30 .N .L).phase ≠ .fault ∧ ∃ t, step (bitAt 12#5 30 .N .L) = .next t :=
  ⟨by decide, by decide, by decide, next_of_answersNext (by decide)⟩

/-- Nothing is refused where no width is given, so every `fits` hypothesis is met by a state without widths. -/
theorem test_witness_fits :
    ({ at_ .trRise 4 .N .N with prev := some .N, idx := 5 } : State).fits = true ∧
    ({ syncAt 13 1 .N .N with runLen := 2, prev := some .N, idx := 14 } : State).fits = true ∧
    (consumeSample (fieldOp 12#5 (acquire 12#5 (bitAt 12#5 30 .N .L)))).fits = true := by decide

/-- A `fits` hypothesis is also met, and at its bound, with physical widths. -/
theorem test_witness_fits_at_width :
    ({ at_ .trRise 6 .N .N with idxWidth := some 3, cntWidth := some 1, idx := 7 } : State).fits = true ∧
    ({ at_ .trRise 6 .N .N with idxWidth := some 3, cntWidth := some 1, idx := 8 } : State).fits = false := by decide

/-- Witness of the selection clauses of the waiting operations, TR_EDGE and TR_MEASURE. -/
theorem test_witness_timing :
    (at_ .trRise 4 .N .N).rise = false ∧ (at_ .trRise 4 .N .H).rise = true ∧ (at_ .trFall 5 .H .H).fall = false ∧
    (at_ .trFall 6 .H .N).fall = true ∧ (4 < 6) ∧
    (bitAt 12#5 28 .H .N).rise = false ∧ (bitAt 12#5 28 .H .N).idx ≠ 26 + 3 * 2 := by decide

/-- Witness of TrMeasureMeasuresAndArms, last clause: ACQ_PARITY answers. -/
theorem test_witness_arm : ∃ u, exec .acqParity (bitAt 31#5 150 .N .H) = .next u := ⟨_, rfl⟩

/-- Witness of HalfBitIsMeasuredOnce: an operation other than TR_MEASURE, and a sample in each of the two phases. -/
theorem test_witness_half_bit :
    Instr.syncLow ≠ .trMeasure ∧ (∃ t, exec .syncLow (syncAt 13 1 .N .N) = .next t) ∧
    (syncAt 13 1 .N .N).host = .sample .N :: [] ∧ (syncAt 13 1 .N .N).phase = .sync ∧
    (∃ t, step (syncAt 13 1 .N .N) = .next t) ∧ (bitAt 12#5 30 .N .L).phase = .bit :=
  ⟨by decide, next_of_answersNext (by decide), by decide, by decide, next_of_answersNext (by decide), by decide⟩

/-- Witness of GapDetectorCountsAndBreaks, SyncFireStartsAWord and GapFiresFromThreeBitWidths: the threshold 12 and 11. -/
theorem test_witness_gap :
    (syncAt 13 1 .N .N).rise = false ∧ (syncAt 13 1 .N .N).low = true ∧
    (syncAt 13 0 .H .H).rise = false ∧ (syncAt 13 0 .H .H).low = false ∧
    (syncAt 17 11 .N .H).rise = true ∧ (syncAt 17 11 .N .H).gapOk = false ∧
    (syncAt 17 11 .N .H).runLen + 1 = 3 * (2 * 2) ∧
    (syncAt 18 12 .N .H).rise = true ∧ (syncAt 18 12 .N .H).gapOk = true := by decide

/-- Witness of BitEdgeAndTimeoutAcquire: an edge at the bound, and none at the bound. -/
theorem test_witness_bit :
    (bitAt 12#5 32 .N .H).rise = true ∧ (bitAt 12#5 32 .N .N).rise = false ∧
    (bitAt 12#5 32 .N .N).idx = (bitAt 12#5 32 .N .N).eLast + 3 * (bitAt 12#5 32 .N .N).h := by decide

/-- Witness of AcquiredBitEmitsInOrder, AcquisitionWritesPositions and AcquisitionFrame: each `k` that a clause names and
its neighbours, and SYNC_FIRE. -/
theorem test_witness_acquisition :
    [(0#5 : BitIndex), 6#5, 7#5, 8#5, 9#5, 10#5, 27#5, 28#5, 29#5, 30#5, 31#5].map
        (fun k => (answersNext (exec (.bitEdge k) (bitAt k 30 .N .H)),
          answersNext (exec (.bitTimeout k) (bitAt k 32 .N .N)))) = List.replicate 11 (true, true) ∧
    answersNext (exec .syncFire (syncAt 18 12 .N .H)) = true := by decide

/-- The same with an entry in `sel`, at the first and the last data bit. -/
theorem test_witness_acquisition_with_entry :
    [(10#5 : BitIndex), 28#5].map
        (fun k => answersNext (exec (.bitEdge k) { bitAt k 30 .N .H with sel := some entryC, phStart := some 30 })) =
      [true, true] := by decide +kernel

/-- Witness of AcqLabelSetsItsBit and AcqDataSetsItsBit: the ranges are inhabited at both ends. -/
theorem test_witness_ranges :
    (6#5 : BitIndex).toNat ≤ 6 ∧ 10 ≤ (10#5 : BitIndex).toNat ∧ (27#5 : BitIndex).toNat ≤ 27 := by decide

/-- Witness of AcqDataLastEmitsAndScales: no entry, and one of each mode. -/
theorem test_witness_data_last :
    (bitAt 28#5 138 .N .H).sel = none ∧
    (scaleAt (window 11#5 14#5 two) 0#19).sel = some (window 11#5 14#5 two) ∧ (window 11#5 14#5 two).signMode = 0#2 ∧
    (scaleAt entryA 0#19).sel = some entryA ∧ entryA.signMode = 1#2 ∧
    (scaleAt entryC 0#19).sel = some entryC ∧ entryC.signMode = 2#2 := by decide

/-- Witness of the three scaler statements: the narrowest and the widest legal window, and no entry. -/
theorem test_witness_scale :
    (bitAt 28#5 138 .N .H).sel = none ∧ (scaleAt entryA 0x15#19).sel = some entryA ∧ entryA.legal = true ∧
    (scaleAt entryA 0x15#19).phStart = some 66 ∧ (window 11#5 11#5 two).legal = true ∧
    (window 29#5 29#5 two).legal = true ∧ (window 11#5 29#5 two).legal = true := by decide

/-- Witness of UnsignedCountRecoversTheWindow, second clause. -/
theorem test_witness_window_29 : (window 20#5 29#5 one).legal = true ∧ (window 20#5 29#5 one).l = 29 := by decide

/-- Witness of SignedValuesAreSymmetric: data 0x15 and 0x5 over the window 11 to 14. -/
theorem test_witness_symmetric :
    entryA.legal = true ∧ entryA.field 0x5#19 < 2 ^ entryA.width ∧
    entryA.field 0x15#19 = entryA.field 0x5#19 + 2 ^ entryA.width ∧
    F64.isNaN ((signedStage entryA 0x5#19).value entryA.lsbWeight) = false := by decide +kernel

/-- `1 + 2^-52` and 1.5, whose exact product lies midway between two data. -/
def tieA : Binary64 := 0x3FF0000000000001#64
def tieB : Binary64 := 0x3FF8000000000000#64

/-- The datum below that midpoint; the product is the one above it, with the even significand. -/
def tieBelow : Binary64 := 0x3FF8000000000001#64

/-- Witness of ProductIsNearestBinary64: all four are finite. -/
theorem test_witness_nearest :
    F64.isFinite tieA = true ∧ F64.isFinite tieB = true ∧ F64.isFinite (F64.mul tieA tieB) = true ∧
    F64.isFinite tieBelow = true ∧ F64.mul tieA tieB = 0x3FF8000000000002#64 := by decide +kernel

/-- Witness of ProductTiesToEvenAndOverflows, first clause: a tie. -/
theorem test_witness_tie :
    F64.toRat tieBelow ≠ F64.toRat (F64.mul tieA tieB) ∧
    |F64.toRat (F64.mul tieA tieB) - F64.toRat tieA * F64.toRat tieB| =
      |F64.toRat tieBelow - F64.toRat tieA * F64.toRat tieB| := by
  have hm : F64.mul tieA tieB = 0x3FF8000000000002#64 := by decide +kernel
  have value (x : Binary64) (n : Nat) (hs : F64.sign x = false) (hn : F64.sig x = n) (he : F64.exp x = -52) :
      F64.toRat x = n * (2 : ℚ) ^ (-52 : Int) := by
    simp [F64.toRat, hs, hn, he]
  rw [hm, value 0x3FF8000000000002#64 6755399441055746 (by decide +kernel) (by decide +kernel) (by decide +kernel),
    value tieBelow 6755399441055745 (by decide +kernel) (by decide +kernel) (by decide +kernel),
    value tieA 4503599627370497 (by decide +kernel) (by decide +kernel) (by decide +kernel),
    value tieB 6755399441055744 (by decide +kernel) (by decide +kernel) (by decide +kernel)]
  norm_num [abs_of_neg, abs_of_pos]

/-- Its second clause, both ways: the largest datum times 2 overflows, times 1 it does not. -/
theorem test_witness_overflow :
    F64.isInf (F64.mul 0x7FEFFFFFFFFFFFFF#64 two) = true ∧ F64.isInf (F64.mul 0x7FEFFFFFFFFFFFFF#64 one) = false := by
  decide +kernel

/-- Witness of ProductOfSpecialOperands: infinity and zero, infinity and one, zero and one. -/
theorem test_witness_special :
    F64.isInf 0x7FF0000000000000#64 = true ∧ F64.isNaN 0x7FF8000000000000#64 = true ∧ F64.isZero 0#64 = true ∧
    F64.isZero 0x8000000000000000#64 = true ∧ F64.isNaN one = false ∧ F64.isZero one = false ∧
    F64.isFinite one = true ∧ F64.isFinite 0#64 = true ∧ F64.isNaN (F64.mul one two) = false := by decide +kernel

/-- The twelve bits below the sign of the NaN of a product are ones. -/
theorem freeNaN_bit (a b : Binary64) (i : Nat) (hi : 51 ≤ i) (hi' : i < 63) : (F64.freeNaN a b).getLsbD i = true := by
  have outer : (F64.freeNaN a b).getLsbD i = (0xFFF#12 ++ Config.nanPayload a b).getLsbD i :=
    (BitVec.getLsbD_append ..).trans (by simp [hi'])
  rw [outer, BitVec.getLsbD_append]
  have : i - 51 < 12 := by omega
  simp only [show ¬ i < 51 by omega, if_false]
  interval_cases i <;> rfl

/-- A NaN operand gives a NaN whatever the free sign and payload are. -/
theorem test_witness_nan : F64.isNaN (F64.mul 0x7FF8000000000000#64 one) = true := by
  have hmul : F64.mul 0x7FF8000000000000#64 one = F64.freeNaN 0x7FF8000000000000#64 one := rfl
  generalize hv : F64.freeNaN 0x7FF8000000000000#64 one = v at hmul
  have bits (i : Nat) (hi : 51 ≤ i) (hi' : i < 63) : v.getLsbD i = true := hv ▸ freeNaN_bit _ _ i hi hi'
  have exponent : v.extractLsb' 52 11 = 0x7FF#11 := by
    apply BitVec.eq_of_getLsbD_eq
    intro i hi
    rw [BitVec.getLsbD_extractLsb', bits (52 + i) (by omega) (by omega)]
    interval_cases i <;> rfl
  have fraction : v.extractLsb' 0 52 ≠ 0#52 := fun zero => by
    have bit := congrArg (fun x : BitVec 52 => x.getLsbD 51) zero
    rw [BitVec.getLsbD_extractLsb', bits (0 + 51) (by omega) (by omega)] at bit
    cases bit
  have hf : F64.fracField v ≠ 0 := fun h => fraction (BitVec.eq_of_toNat_eq h)
  simp [hmul, F64.isNaN, F64.expField, exponent, hf]

/-- Witness of IntegerConversionIsExact and MsbWeightIsExactInTheNormalRange, at the bound of each. -/
theorem test_witness_exact :
    (2 ^ 53 - 1 < 2 ^ 53) ∧ F64.isFinite 0x4056800000000000#64 = true ∧ 18 < F64.expField 0x0130000000000000#64 ∧
    F64.expField 0x0130000000000000#64 = 19 := by decide

/-- Witness of ResetSequenceStartsTheSession, with and without static decoding, and with each reset fault. -/
theorem test_witness_reset :
    [staticCfg, tableCfg, Cfg.bare, { Cfg.bare with ctrl := 0x00#8 }, { Cfg.bare with ctrl := 0x07#8 }].map
        (fun c => ((inReset c).rst, decide ((inReset c).host = [.rst false]), (inReset c).cfgIn.check)) =
      List.replicate 5 (true, true, none) ∧
    staticCfg.decEn = true ∧ staticCfg.mode = false := by decide

/-- Witness of IllFormedConfigurationIsRefused, second clause. -/
theorem test_witness_ill_formed :
    (inReset { Cfg.bare with ctrl := 0x21#8 }).cfgIn.check = some .wfCtrl ∧
    (inReset { Cfg.bare with ctrl := 0x21#8 }).rst = true ∧
    (inReset { Cfg.bare with ctrl := 0x21#8 }).host = .rst false :: [] := by decide

/-- Witness of ConfigurationChangeIsRefused: a change, no change, and a change under reset. -/
theorem test_witness_config_change :
    ({ State.reset with host := [.config staticCfg] } : State).rst = false ∧ staticCfg ≠ State.reset.cfgIn ∧
    Cfg.bare = State.reset.cfgIn ∧ (inReset staticCfg).rst = true := by decide

/-- Witness of AssertedResetConsumesNothing. -/
theorem test_witness_asserted :
    ({ bitAt 12#5 30 .N .L with host := [.rst true] } : State).host = .rst true :: [] ∧
    ({ inReset staticCfg with host := [.sample .H] } : State).rst = true := by decide

/-- Witness of ConfigurationIsReadOnly, ResetStateHoldsTheResetValues and StreamOnlyGrows: a step that starts a session. -/
theorem test_witness_session : ∃ t, step (inReset staticCfg) = .next t := next_of_answersNext (by decide)

/-- Witness of WidthOverflowIsRefused: `idx` and `runLen` at the last value of their widths. -/
theorem test_witness_width :
    ({ at_ .trRise 7 .N .N with idxWidth := some 3 } : State).idxWidth = some 3 ∧
    2 ^ 3 ≤ (at_ .trRise 7 .N .N).idx + 1 ∧ 2 ^ 2 ≤ (syncAt 13 3 .N .N).runLen + 1 ∧
    ({ syncAt 13 3 .N .N with cntWidth := some 2 } : State).cntWidth = some 2 ∧
    State.reset.idxWidth = none ∧ State.reset.cntWidth = none := by decide

/-- Witness of ResolverFieldsUnreadWithoutDecoding: two configurations without DEC_EN, a next state and a refusal. -/
theorem test_witness_unread :
    Instr.bitEdge 9#5 ≠ .resolveStatic ∧ Instr.bitEdge 9#5 ≠ .resolveTable ∧ (bitAt 9#5 30 .N .H).sel = none ∧
    (bitAt 9#5 30 .N .H).cfg.decEn = false ∧ { tableCfg with ctrl := 0x0D#8 }.decEn = false ∧
    (∃ t, exec (.bitEdge 9#5) (bitAt 9#5 30 .N .H) = .next t) ∧
    exec (.bitEdge 9#5) { bitAt 9#5 30 .N .H with idxWidth := some 2 } = .refused .widthExceeded :=
  ⟨by decide, by decide, by decide, by decide, by decide, next_of_answersNext (by decide), rfl⟩

/-- Witness of SampleRateEntersNoOperation. -/
theorem test_witness_rate : ∃ t, exec .trWait State.reset = .next t := next_of_answersNext (by decide)

/-- A session in `BIT`, word started at 18 with label 5, SDI 2 and no entry, waiting for bit 12 since 26, with `h = 2`,
the events of bit 0 in the stream. -/
def inWord : State :=
  { bitAt 12#5 30 .N .L with
    labelRaw := 5#8, sdi := 2#2, data := 1#19, wordStart := 18, fieldStart := 22,
    stream := [.bitValue 18 20 1#1, .bitOrdinal 18 20 1] }

theorem test_inWord_inv : inWord.Inv := by
  constructor <;>
    first
    | decide
    | (intro h; cases h; done)
    | (intro p h; simp [inWord, bitAt, at_, State.reset] at h)

/-- A session in table mode at bit 28 of a word whose entry is A, its span captured. -/
def inValue : State :=
  { scaleAt entryA 0x15#19 with cfg := tableCfg, cfgIn := tableCfg, labelRaw := 5#8, sdi := 2#2, idx := 138, eLast := 134 }

theorem test_inValue_inv : inValue.Inv := by
  constructor <;>
    first
    | decide
    | (intro h; cases h; done)
    | (intro p h; simp [inValue, scaleAt, bitAt, at_, State.reset] at h ⊢; omega)

/-- Witness of the clauses of the invariant about a resolved entry, and a step that emits its `Value`. -/
theorem test_witness_resolved :
    inValue.Inv ∧ peek (step inValue) (fun t => t.out.map Event.kind) = some [0, 6, 3, 7] :=
  ⟨test_inValue_inv, by decide +kernel⟩

/-- Witness of StepKeepsTheInvariant: a state of the invariant and its next state. -/
theorem test_witness_invariant : inWord.Inv ∧ ∃ t, step inWord = .next t :=
  ⟨test_inWord_inv, next_of_answersNext (by decide)⟩

/-- Witness of StepKeepsTheStreamOrdered. -/
theorem test_witness_stream : inWord.StreamInv :=
  ⟨test_inWord_inv, by unfold orderedPerKind; decide, by decide⟩

/-- Witness of BitWaitIsBounded: six samples with no edge. -/
theorem test_witness_bit_wait :
    let s : State := { inWord with idx := 27, prev := some .H, host := supply [.H, .N, .N, .N, .N, .N] }
    s.Inv ∧ s.phase = .bit ∧ s.rst = false ∧ s.idxWidth = none ∧ s.cntWidth = none ∧
    [Sample.H, .N, .N, .N, .N, .N].length = 3 * s.h ∧ s.host = supply [.H, .N, .N, .N, .N, .N] ++ [] := by
  refine ⟨?_, by decide, by decide, by decide, by decide, by decide, by decide⟩
  constructor <;>
    first
    | decide
    | (intro h; cases h; done)
    | (intro p h; simp [inWord, bitAt, at_, State.reset] at h)

/-- Witness of IdealWordIsDecoded: `h = 2` after a run of exactly 12, the word of P3. -/
theorem test_witness_ideal_word :
    let s : State := { syncAt 18 12 .N .N with host := supply (idealWord 2 0xE0005605#32) }
    s.Inv ∧ s.phase = .sync ∧ s.prev = some Sample.N ∧ 6 * s.h ≤ s.runLen ∧ s.rst = false ∧ s.idxWidth = none ∧
    s.cntWidth = none ∧ s.host = supply (idealWord s.h 0xE0005605#32) ++ [] := by
  refine ⟨?_, rfl, rfl, by decide, rfl, rfl, rfl, (List.append_nil _).symm⟩
  constructor <;>
    first
    | decide
    | (intro h; cases h; done)
    | (intro p h; simp [syncAt, at_, State.reset] at h)

end Sys2Proof.Tests
end

section
/-! SUPPORT. The step at a sample, the end of the operations that consume it, and the statements O7 and O52. -/

namespace Sys2Proof.Machine

/-! ## A step at a sample -/

/-- With `rst` deasserted, a presented sample selects the operation that its dispatch word decodes to. -/
theorem fetch_sample {s : State} {x : Sample} {rest : List HostInput} {i : Instr} (hrst : s.rst = false)
    (hhost : s.host = .sample x :: rest)
    (hdec : decodeDispatch (State.dispatchWord { s with host := rest, out := [], line := x }) = .ok i) :
    fetch s = .run i { s with host := rest, out := [], line := x } := by
  have present : fetch s = presentSample x { s with host := rest, out := [] } := by rw [fetch, hhost]
  rw [present, presentSample, if_neg (by simp [hrst]), hdec]

theorem step_sample {s : State} {x : Sample} {rest : List HostInput} {i : Instr} (hrst : s.rst = false)
    (hhost : s.host = .sample x :: rest)
    (hdec : decodeDispatch (State.dispatchWord { s with host := rest, out := [], line := x }) = .ok i) :
    step s = deliver (exec i { s with host := rest, out := [], line := x }) := by
  rw [step, fetch_sample hrst hhost hdec]

/-! ## The operations that consume a sample -/

/-- The operations that are a whole step outside FAULT, and so end with the update of 40_bit_timing.md R121. -/
def consumesSample : Instr → Bool
  | .trWait | .trEdge | .trHold | .trMeasure => true
  | .syncLow | .syncBreak | .syncShort | .syncFire => true
  | .bitWait | .bitEdge _ | .bitTimeout _ => true
  | _ => false

theorem exec_of_consumesSample {i : Instr} (hi : consumesSample i = true) (s : State) :
    ∃ u, exec i s = endStep u ∧ u.idxWidth = s.idxWidth ∧ u.cntWidth = s.cntWidth ∧ u.idx = s.idx := by
  cases i with
  | trWait | trHold | bitWait => exact ⟨s, rfl, rfl, rfl, rfl⟩
  | trEdge => exact ⟨{ s with sR := s.idx, phase := .trFall }, rfl, rfl, rfl, rfl⟩
  | trMeasure => exact ⟨enterSync { s with h := s.idx - s.sR }, rfl, rfl, rfl, rfl⟩
  | syncLow => exact ⟨{ s with runLen := s.runLen + 1 }, rfl, rfl, rfl, rfl⟩
  | syncBreak | syncShort => exact ⟨{ s with runLen := 0 }, rfl, rfl, rfl, rfl⟩
  | syncFire => exact ⟨fieldOp 0#5 (acquire 0#5 s), rfl, by simp, by simp, by simp⟩
  | bitEdge k | bitTimeout k => exact ⟨fieldOp k (acquire k s), rfl, by simp, by simp, by simp⟩
  | _ => cases hi

theorem exec_of_not_consumesSample {i : Instr} (hi : consumesSample i = false) (s : State) :
    ∃ t, exec i s = .next t := by
  cases i with
  | trWait | trEdge | trHold | trMeasure | syncLow | syncBreak | syncShort | syncFire | bitWait | bitEdge |
    bitTimeout => cases hi
  | _ => exact ⟨_, rfl⟩

/-! ## Physical widths -/

theorem fitsWidth_of_le {n v : Nat} (h : 2 ^ n ≤ v) : fitsWidth (some n) v = false := by
  simp [fitsWidth, h]

/-- A step after which `idx` needs more than IDX_WIDTH bits is refused (70_reset_and_hazards.md R299). -/
theorem endStep_of_idx_overflow {s : State} {n : Nat} (hn : s.idxWidth = some n) (h : 2 ^ n ≤ s.idx + 1) :
    endStep s = .refused .widthExceeded :=
  (endStep_refused_iff s _).2 ⟨by simp [State.fits, hn, fitsWidth_of_le h], rfl⟩

/-- A step that leaves `runLen` with more than CNT_WIDTH bits is refused (70_reset_and_hazards.md R299). -/
theorem endStep_of_runLen_overflow {s : State} {n : Nat} (hn : s.cntWidth = some n) (h : 2 ^ n ≤ s.runLen) :
    endStep s = .refused .widthExceeded :=
  (endStep_refused_iff s _).2 ⟨by simp [State.fits, hn, fitsWidth_of_le h], rfl⟩

theorem endStep_of_unbounded {s : State} (hi : s.idxWidth = none) (hc : s.cntWidth = none) :
    endStep s = .next (consumeSample s) :=
  endStep_of_fits (fits_of_unbounded hi hc)

/-- Settles O7: the sample is fetched with the decoded operation, and `deliver` appends the events. -/
theorem stepRunsDecodedInstruction : Obligations.StepRunsDecodedInstruction := by
  intro s x rest i hrst hhost hdec _
  rw [step_sample hrst hhost hdec]
  cases exec i { s with host := rest, out := [], line := x } <;> rfl

/-- Settles O52: `idx + 1` is the new `idx` of every operation that consumes a sample, `runLen + 1` the new `runLen` of
SYNC_LOW, and the end of the step refuses either past its width and nothing when there is none. -/
theorem widthOverflowIsRefused : Obligations.WidthOverflowIsRefused := by
  refine ⟨fun s n k hn h i hi => ?_, fun s n hn h => ?_, fun i s hidx hcnt => ?_⟩
  · have consumes : consumesSample i = true := List.all_eq_true.mp (by rfl) i hi
    obtain ⟨u, hexec, hwidth, -, hu⟩ := exec_of_consumesSample consumes s
    rw [hexec]
    exact endStep_of_idx_overflow (hwidth.trans hn) (hu ▸ h)
  · exact endStep_of_runLen_overflow (s := { s with runLen := s.runLen + 1 }) hn h
  · cases hi : consumesSample i with
    | false => exact exec_of_not_consumesSample hi s
    | true =>
      obtain ⟨u, hexec, hidx', hcnt', -⟩ := exec_of_consumesSample hi s
      exact ⟨consumeSample u, hexec.trans (endStep_of_unbounded (hidx'.trans hidx) (hcnt'.trans hcnt))⟩

end Sys2Proof.Machine
end

section
/-! SUPPORT. Round to nearest, ties to even (00_scope.md R5, 43_value_scaler.md R209): `F64.roundPack` counts the exact
value in a unit, takes the nearest integer of them and packs it. Every datum is an integer in that unit or lies below
all rounded values, so no datum is nearer. The statements O40 and O41 follow. -/

namespace Sys2Proof.Machine

/-! ## The nearest integer, ties to even -/

/-- `n` is the integer nearest to `t`, and the even one where two are equally near (00_scope.md R5). -/
structure NearestEven (n : Nat) (t : ℚ) : Prop where
  within_half : |(n : ℚ) - t| ≤ 1 / 2
  even_of_half : |(n : ℚ) - t| = 1 / 2 → n % 2 = 0

theorem nearestEven_of_eq {n : Nat} {t : ℚ} (h : (n : ℚ) = t) : NearestEven n t := by
  constructor <;> simp [h]

/-- Two integers are at least 1 apart, so their distances to `t` add up to at least 1. -/
theorem one_le_dist_add_dist {n z : ℤ} (hz : z ≠ n) (t : ℚ) : 1 ≤ |(n : ℚ) - t| + |(z : ℚ) - t| := by
  have apart : (1 : ℚ) ≤ |(n : ℚ) - z| := by
    exact_mod_cast Int.one_le_abs (sub_ne_zero.mpr hz.symm)
  calc (1 : ℚ) ≤ |(n : ℚ) - z| := apart
    _ ≤ |(n : ℚ) - t| + |t - z| := abs_sub_le _ _ _
    _ = |(n : ℚ) - t| + |(z : ℚ) - t| := by rw [abs_sub_comm t]

theorem NearestEven.dist_le {n : Nat} {t : ℚ} (h : NearestEven n t) (z : ℤ) : |(n : ℚ) - t| ≤ |(z : ℚ) - t| := by
  by_cases hz : z = n
  · simp [hz]
  · have sum := one_le_dist_add_dist hz t
    have half := h.within_half
    push_cast at sum
    linarith

theorem NearestEven.even_of_tie {n : Nat} {t : ℚ} (h : NearestEven n t) {z : ℤ} (hz : z ≠ n)
    (tie : |(n : ℚ) - t| = |(z : ℚ) - t|) : n % 2 = 0 := by
  have sum := one_le_dist_add_dist hz t
  push_cast at sum
  exact h.even_of_half (le_antisymm h.within_half (by linarith))

/-- Rounding does not pass an integer, from below or from above. -/
theorem NearestEven.le_of_le_exact {n k : Nat} {t : ℚ} (h : NearestEven n t) (hk : (k : ℚ) ≤ t) : k ≤ n := by
  have := (abs_le.mp h.within_half).1
  by_contra lt
  have : (n : ℚ) + 1 ≤ k := by exact_mod_cast not_le.mp lt
  linarith

theorem NearestEven.le_of_exact_le {n k : Nat} {t : ℚ} (h : NearestEven n t) (hk : t ≤ k) : n ≤ k := by
  have := (abs_le.mp h.within_half).2
  by_contra lt
  have : (k : ℚ) + 1 ≤ n := by exact_mod_cast not_le.mp lt
  linarith

/-- An even `k` is reached from the midpoint below it on. -/
theorem NearestEven.even_le_iff {n k : Nat} {t : ℚ} (h : NearestEven n t) (even : k % 2 = 0) :
    k ≤ n ↔ (k : ℚ) - 1 / 2 ≤ t := by
  obtain ⟨low, high⟩ := abs_le.mp h.within_half
  constructor
  · intro le
    have : (k : ℚ) ≤ n := by exact_mod_cast le
    linarith
  · intro mid
    by_contra lt
    have below : (n : ℚ) + 1 ≤ k := by exact_mod_cast not_le.mp lt
    have gap : (n : ℚ) - t = -(1 / 2) := by linarith
    have next : (n : ℚ) + 1 = k := by linarith
    have succ : n + 1 = k := by exact_mod_cast next
    have := h.even_of_half (by rw [gap]; norm_num)
    omega

/-- Rounding `q + r` by comparing the fraction `r` with one half. -/
theorem nearestEven_of_fraction (q : Nat) {r : ℚ} (nonneg : 0 ≤ r) (lt_one : r < 1) :
    NearestEven (if 1 / 2 < r ∨ (r = 1 / 2 ∧ q % 2 = 1) then q + 1 else q) (q + r) := by
  split_ifs with up
  · have dist : |((q + 1 : Nat) : ℚ) - (q + r)| = 1 - r := by
      rw [abs_of_nonneg] <;> push_cast <;> linarith
    constructor
    · rcases up with above | ⟨half, -⟩ <;> linarith
    · intro half
      rcases up with above | ⟨-, odd⟩
      · linarith
      · omega
  · have dist : |(q : ℚ) - (q + r)| = r := by
      rw [abs_of_nonpos] <;> linarith
    rw [not_or, not_lt, not_and] at up
    obtain ⟨le, odd⟩ := up
    exact ⟨dist.le.trans le, fun half => by have := odd (dist.symm.trans half); omega⟩

theorem roundShift_nearestEven (m sh : Nat) : NearestEven (F64.roundShift m sh) ((m : ℚ) / 2 ^ sh) := by
  have pos : (0 : ℚ) < 2 ^ sh := by positivity
  have parts : (m : ℚ) / 2 ^ sh = (m / 2 ^ sh : Nat) + ((m % 2 ^ sh : Nat) : ℚ) / 2 ^ sh := by
    rw [div_eq_iff pos.ne', add_mul, div_mul_cancel₀ _ pos.ne']
    exact_mod_cast (Nat.div_add_mod' m (2 ^ sh)).symm
  have lt_one : ((m % 2 ^ sh : Nat) : ℚ) / 2 ^ sh < 1 :=
    (div_lt_one pos).mpr (by exact_mod_cast Nat.mod_lt m (Nat.two_pow_pos sh))
  have half_lt : 2 * (m % 2 ^ sh) > 2 ^ sh ↔ (1 / 2 : ℚ) < ((m % 2 ^ sh : Nat) : ℚ) / 2 ^ sh := by
    rw [div_lt_div_iff₀ two_pos pos, one_mul, mul_comm _ (2 : ℚ)]
    norm_cast
  have half_eq : 2 * (m % 2 ^ sh) = 2 ^ sh ↔ ((m % 2 ^ sh : Nat) : ℚ) / 2 ^ sh = 1 / 2 := by
    rw [div_eq_div_iff pos.ne' two_ne_zero, one_mul, mul_comm _ (2 : ℚ)]
    norm_cast
  simp only [F64.roundShift, half_lt, half_eq, parts]
  exact nearestEven_of_fraction _ (by positivity) lt_one

theorem inUnits_nearestEven (m : Nat) (e q : Int) : NearestEven (F64.inUnits m e q) ((m : ℚ) * 2 ^ (e - q)) := by
  unfold F64.inUnits
  split_ifs with h
  · apply nearestEven_of_eq
    obtain ⟨d, hd⟩ := Int.eq_ofNat_of_zero_le (show 0 ≤ e - q by omega)
    simp [hd]
  · obtain ⟨d, hd⟩ := Int.eq_ofNat_of_zero_le (show 0 ≤ q - e by omega)
    have flip : (m : ℚ) * 2 ^ (e - q) = m / 2 ^ (q - e).toNat := by
      rw [show e - q = -(d : Int) by omega, hd, zpow_neg, zpow_natCast, Int.toNat_natCast, div_eq_mul_inv]
    rw [flip]
    exact roundShift_nearestEven m _

/-! ## The fields of a packed datum -/

theorem toNat_signed (neg : Bool) {b : Nat} (hb : b < 2 ^ 63) : (F64.signed neg b).toNat = neg.toNat * 2 ^ 63 + b := by
  rw [F64.signed, BitVec.toNat_append, BitVec.toNat_ofBool, BitVec.toNat_ofNat, Nat.mod_eq_of_lt hb,
    ← Nat.shiftLeft_add_eq_or_of_lt hb, Nat.shiftLeft_eq]

@[simp] theorem sign_signed (neg : Bool) (b : Nat) : F64.sign (F64.signed neg b) = neg := by
  rw [F64.sign, F64.signed, BitVec.getLsbD_append]
  simp

theorem expField_signed (neg : Bool) {b : Nat} (hb : b < 2 ^ 63) : F64.expField (F64.signed neg b) = b / 2 ^ 52 := by
  rw [F64.expField, BitVec.extractLsb'_toNat, toNat_signed neg hb, Nat.shiftRight_eq_div_pow]
  omega

theorem fracField_signed (neg : Bool) {b : Nat} (hb : b < 2 ^ 63) :
    F64.fracField (F64.signed neg b) = b % 2 ^ 52 := by
  rw [F64.fracField, BitVec.extractLsb'_toNat, toNat_signed neg hb, Nat.shiftRight_eq_div_pow]
  omega

theorem isFinite_signed_iff (neg : Bool) {b : Nat} (hb : b ≤ F64.infBits) :
    F64.isFinite (F64.signed neg b) = true ↔ b < F64.infBits := by
  have lt : b < 2 ^ 63 := lt_of_le_of_lt hb (by decide)
  rw [F64.isFinite, expField_signed neg lt, bne_iff_ne]
  unfold F64.infBits at *
  omega

theorem isInf_signed_iff (neg : Bool) {b : Nat} (hb : b ≤ F64.infBits) :
    F64.isInf (F64.signed neg b) = true ↔ b = F64.infBits := by
  have lt : b < 2 ^ 63 := lt_of_le_of_lt hb (by decide)
  rw [F64.isInf, expField_signed neg lt, fracField_signed neg lt, Bool.and_eq_true, beq_iff_eq, beq_iff_eq]
  unfold F64.infBits at *
  omega

/-! ## Exact values -/

/-- `-1` for a negative sign. -/
def signFactor (neg : Bool) : ℤ := if neg then -1 else 1

theorem signFactor_bne (na nb : Bool) : signFactor (na != nb) = signFactor na * signFactor nb := by
  revert na nb; decide

theorem signFactor_mul_self (neg : Bool) : signFactor neg * signFactor neg = 1 := by revert neg; decide

@[simp] theorem abs_signFactor (neg : Bool) : |(signFactor neg : ℚ)| = 1 := by
  cases neg <;> simp [signFactor]

/-- `± m × 2^e`, the exact value that an operation rounds. -/
def exactValue (neg : Bool) (m : Nat) (e : Int) : ℚ := signFactor neg * ((m : ℚ) * 2 ^ e)

theorem toRat_eq_exactValue (a : Binary64) : F64.toRat a = exactValue (F64.sign a) (F64.sig a) (F64.exp a) := by
  unfold F64.toRat exactValue signFactor
  split <;> push_cast <;> ring

theorem exactValue_mul (na nb : Bool) (ma mb : Nat) (ea eb : Int) :
    exactValue na ma ea * exactValue nb mb eb = exactValue (na != nb) (ma * mb) (ea + eb) := by
  unfold exactValue
  rw [zpow_add₀ two_ne_zero, signFactor_bne]
  push_cast
  ring

theorem abs_exactValue (neg : Bool) (m : Nat) (e : Int) : |exactValue neg m e| = (m : ℚ) * 2 ^ e := by
  rw [exactValue, abs_mul, abs_signFactor, one_mul, abs_of_nonneg (by positivity)]

/-- A significand and a unit say the same in a finer unit. -/
theorem exactValue_finer (neg : Bool) (m d : Nat) (e : Int) :
    exactValue neg m (e + d) = exactValue neg (m * 2 ^ d) e := by
  unfold exactValue
  rw [zpow_add₀ two_ne_zero, zpow_natCast]
  push_cast
  ring

theorem sig_lt (a : Binary64) : F64.sig a < 2 ^ 53 := by
  have : F64.fracField a < 2 ^ 52 := (a.extractLsb' 0 52).isLt
  unfold F64.sig
  split <;> omega

theorem minExp_le_exp (a : Binary64) : -1074 ≤ F64.exp a := by
  unfold F64.exp
  split <;> omega

/-! ## A significand packed with its unit -/

/-- `n × 2^(k - 1074)` as `F64.roundPack` packs it: the value is kept, and the parity of the significand, even where a
significand of `2^53` carries into the exponent field. -/
theorem toRat_signed (neg : Bool) {k n : Nat} (hn : n ≤ 2 ^ 53) (hk : k = 0 ∨ 2 ^ 52 ≤ n)
    (fin : k * 2 ^ 52 + n < F64.infBits) :
    F64.toRat (F64.signed neg (k * 2 ^ 52 + n)) = exactValue neg n ((k : Int) - 1074) ∧
      F64.sig (F64.signed neg (k * 2 ^ 52 + n)) % 2 = n % 2 := by
  have lt : k * 2 ^ 52 + n < 2 ^ 63 := lt_trans fin (by decide)
  rw [toRat_eq_exactValue, sign_signed, F64.sig, F64.exp, expField_signed neg lt, fracField_signed neg lt]
  obtain sub | normal | carry : (k = 0 ∧ n < 2 ^ 52) ∨ (2 ^ 52 ≤ n ∧ n < 2 ^ 53) ∨ n = 2 ^ 53 := by omega
  · obtain ⟨rfl, small⟩ := sub
    have field : (0 * 2 ^ 52 + n) / 2 ^ 52 = 0 := by omega
    have frac : (0 * 2 ^ 52 + n) % 2 ^ 52 = n := by omega
    rw [field, frac]
    simp
  · have field : (k * 2 ^ 52 + n) / 2 ^ 52 = k + 1 := by omega
    have frac : (k * 2 ^ 52 + n) % 2 ^ 52 + 2 ^ 52 = n := by omega
    have unit : ((k + 1 : Nat) : Int) - 1075 = k - 1074 := by omega
    rw [field, if_neg k.succ_ne_zero, if_neg k.succ_ne_zero, frac, unit]
    exact ⟨rfl, rfl⟩
  · have field : (k * 2 ^ 52 + n) / 2 ^ 52 = k + 2 := by omega
    have frac : (k * 2 ^ 52 + n) % 2 ^ 52 + 2 ^ 52 = 2 ^ 52 := by omega
    have unit : ((k + 2 : Nat) : Int) - 1075 = k - 1074 + (1 : Nat) := by omega
    rw [field, if_neg (Nat.succ_ne_zero _), if_neg (Nat.succ_ne_zero _), frac, unit, exactValue_finer, carry]
    exact ⟨rfl, rfl⟩

/-! ## The unit of rounding -/

theorem minExp_le_unitExp (m : Nat) (e : Int) : -1074 ≤ F64.unitExp m e := le_max_right _ _

/-- `m × 2^e` counted in its unit of rounding, exact. -/
def exactUnits (m : Nat) (e : Int) : ℚ := (m : ℚ) * 2 ^ (e - F64.unitExp m e)

theorem exactUnits_mul_unit (m : Nat) (e : Int) : exactUnits m e * 2 ^ F64.unitExp m e = (m : ℚ) * 2 ^ e := by
  rw [exactUnits, mul_assoc, ← zpow_add₀ two_ne_zero, sub_add_cancel]

theorem exactUnits_lt (m : Nat) (e : Int) : exactUnits m e < 2 ^ 53 := by
  have hm : (m : ℚ) < 2 ^ ((Nat.log2 m : Int) + 1) := by exact_mod_cast Nat.lt_log2_self
  have unit : e - F64.unitExp m e ≤ 52 - Nat.log2 m := by
    have := le_max_left (e + (Nat.log2 m : Int) - 52) (-1074)
    unfold F64.unitExp
    omega
  calc exactUnits m e < 2 ^ ((Nat.log2 m : Int) + 1) * 2 ^ (e - F64.unitExp m e) :=
        mul_lt_mul_of_pos_right hm (by positivity)
    _ ≤ 2 ^ ((Nat.log2 m : Int) + 1) * 2 ^ (52 - (Nat.log2 m : Int)) := by gcongr; norm_num
    _ = 2 ^ 53 := by
      have exponent : (Nat.log2 m : Int) + 1 + (52 - Nat.log2 m) = (53 : Nat) := by omega
      rw [← zpow_add₀ two_ne_zero, exponent, zpow_natCast]

/-- Above the subnormal unit, the unit leaves 53 significant bits. -/
theorem le_exactUnits {m : Nat} (hm : m ≠ 0) {e : Int} (hq : F64.unitExp m e ≠ -1074) : 2 ^ 52 ≤ exactUnits m e := by
  have hm' : (2 : ℚ) ^ (Nat.log2 m : Int) ≤ m := by exact_mod_cast Nat.log2_self_le hm
  have unit : e - F64.unitExp m e = 52 - Nat.log2 m := by
    unfold F64.unitExp at *
    rcases max_choice (e + (Nat.log2 m : Int) - 52) (-1074) with h | h
    · omega
    · exact absurd h hq
  calc (2 : ℚ) ^ 52 = 2 ^ (Nat.log2 m : Int) * 2 ^ (52 - (Nat.log2 m : Int)) := by
        rw [← zpow_add₀ two_ne_zero]; norm_num
    _ ≤ exactUnits m e := by rw [exactUnits, unit]; gcongr

/-- The rounded significand of `m × 2^e`. -/
def roundedUnits (m : Nat) (e : Int) : Nat := F64.inUnits m e (F64.unitExp m e)

theorem roundedUnits_nearestEven (m : Nat) (e : Int) : NearestEven (roundedUnits m e) (exactUnits m e) :=
  inUnits_nearestEven m e _

theorem roundedUnits_zero (e : Int) : roundedUnits 0 e = 0 :=
  Nat.le_zero.mp ((roundedUnits_nearestEven 0 e).le_of_exact_le (by simp [exactUnits]))

theorem roundedUnits_le (m : Nat) (e : Int) : roundedUnits m e ≤ 2 ^ 53 :=
  (roundedUnits_nearestEven m e).le_of_exact_le (by exact_mod_cast (exactUnits_lt m e).le)

theorem le_roundedUnits {m : Nat} (hm : m ≠ 0) {e : Int} (hq : F64.unitExp m e ≠ -1074) :
    2 ^ 52 ≤ roundedUnits m e :=
  (roundedUnits_nearestEven m e).le_of_le_exact (by exact_mod_cast le_exactUnits hm hq)

/-! ## Rounding and packing -/

/-- The lower 63 bits that `F64.roundPack` packs, before overflow is cut off. -/
def roundedBits (m : Nat) (e : Int) : Nat := (F64.unitExp m e + 1074).toNat * 2 ^ 52 + roundedUnits m e

theorem roundPack_zero (neg : Bool) (e : Int) : F64.roundPack neg 0 e = F64.signed neg 0 := rfl

theorem roundPack_eq (neg : Bool) {m : Nat} (hm : m ≠ 0) (e : Int) :
    F64.roundPack neg m e = F64.signed neg (min (roundedBits m e) F64.infBits) := if_neg hm

/-- A finite `F64.roundPack` has the value of the rounded significand in its unit, and the parity. -/
theorem roundPack_of_finite (neg : Bool) (m : Nat) (e : Int) (fin : F64.isFinite (F64.roundPack neg m e) = true) :
    F64.toRat (F64.roundPack neg m e) = exactValue neg (roundedUnits m e) (F64.unitExp m e) ∧
      F64.sig (F64.roundPack neg m e) % 2 = roundedUnits m e % 2 := by
  by_cases hm : m = 0
  · subst hm
    obtain ⟨value, parity⟩ :=
      toRat_signed neg (Nat.zero_le (2 ^ 53)) (.inl rfl) (by decide : 0 * 2 ^ 52 + 0 < F64.infBits)
    rw [roundPack_zero, roundedUnits_zero]
    exact ⟨value.trans (by simp [exactValue]), parity⟩
  · rw [roundPack_eq neg hm, isFinite_signed_iff neg (min_le_right _ _)] at fin
    have lt : roundedBits m e < F64.infBits := by omega
    have unit : ((F64.unitExp m e + 1074).toNat : Int) - 1074 = F64.unitExp m e := by
      have := minExp_le_unitExp m e
      omega
    have normal : (F64.unitExp m e + 1074).toNat = 0 ∨ 2 ^ 52 ≤ roundedUnits m e := by
      by_cases hq : F64.unitExp m e = -1074
      · exact .inl (by omega)
      · exact .inr (le_roundedUnits hm hq)
    rw [roundPack_eq neg hm, min_eq_left lt.le, ← unit]
    exact toRat_signed neg (roundedUnits_le m e) normal lt

/-! ## The distance to any other datum -/

/-- A datum in units of `2^q`: an integer, or, where it has a finer unit, less than `2^52` in magnitude. -/
theorem datum_in_units (neg : Bool) (c : Binary64) (q : Int) :
    ∃ y : ℚ, F64.toRat c = signFactor neg * (y * 2 ^ q) ∧
      ((∃ z : ℤ, y = z) ∨ (q ≠ -1074 ∧ |y| < 2 ^ 52)) := by
  have minExp : -1074 ≤ F64.exp c := minExp_le_exp c
  have sign : (signFactor neg : ℚ) * signFactor neg = 1 := by exact_mod_cast signFactor_mul_self neg
  refine ⟨signFactor neg * (signFactor (F64.sign c) * (F64.sig c * 2 ^ (F64.exp c - q))), ?_, ?_⟩
  · rw [toRat_eq_exactValue, exactValue, mul_assoc (signFactor neg : ℚ), ← mul_assoc _ (signFactor neg : ℚ), sign,
      one_mul, mul_assoc, mul_assoc, ← zpow_add₀ two_ne_zero, sub_add_cancel]
  · by_cases coarse : q ≤ F64.exp c
    · obtain ⟨d, hd⟩ := Int.eq_ofNat_of_zero_le (sub_nonneg.mpr coarse)
      refine .inl ⟨signFactor neg * (signFactor (F64.sign c) * (F64.sig c * 2 ^ d)), ?_⟩
      rw [hd]
      push_cast
      rfl
    · refine .inr ⟨by omega, ?_⟩
      have sig : (F64.sig c : ℚ) < 2 ^ 53 := by exact_mod_cast sig_lt c
      rw [abs_mul, abs_mul, abs_signFactor, abs_signFactor, one_mul, one_mul, abs_of_nonneg (by positivity)]
      calc (F64.sig c : ℚ) * 2 ^ (F64.exp c - q) < 2 ^ 53 * 2 ^ (F64.exp c - q) :=
            mul_lt_mul_of_pos_right sig (by positivity)
        _ ≤ 2 ^ 53 * 2 ^ (-1 : ℤ) := by gcongr; norm_num; omega
        _ = 2 ^ 52 := by norm_num

/-- The rounded significand is as near to the exact one as any datum `y` in the same unit, and even at a tie. -/
theorem roundedUnits_dist_le (m : Nat) (e : Int) {y : ℚ}
    (hy : (∃ z : ℤ, y = z) ∨ (F64.unitExp m e ≠ -1074 ∧ |y| < 2 ^ 52)) :
    |(roundedUnits m e : ℚ) - exactUnits m e| ≤ |y - exactUnits m e| ∧
      (y ≠ roundedUnits m e → |(roundedUnits m e : ℚ) - exactUnits m e| = |y - exactUnits m e| →
        roundedUnits m e % 2 = 0) := by
  have nearest := roundedUnits_nearestEven m e
  by_cases hm : m = 0
  · subst hm
    simp [roundedUnits_zero, exactUnits]
  obtain ⟨z, rfl⟩ | ⟨hq, small⟩ := hy
  · exact ⟨nearest.dist_le z, fun ne => nearest.even_of_tie (by exact_mod_cast ne)⟩
  · have large := le_exactUnits hm hq
    have bound : |(roundedUnits m e : ℚ) - exactUnits m e| ≤ |((2 ^ 52 : ℤ) : ℚ) - exactUnits m e| := nearest.dist_le _
    have farther : |((2 ^ 52 : ℤ) : ℚ) - exactUnits m e| < |y - exactUnits m e| := by
      have := (abs_lt.mp small).2
      push_cast
      rw [abs_of_nonpos (by linarith), abs_of_neg (by linarith)]
      linarith
    exact ⟨(bound.trans_lt farther).le, fun _ tie => absurd tie (bound.trans_lt farther).ne⟩

/-- Distances scale with the unit, whatever the common sign. -/
theorem abs_sub_in_units (neg : Bool) (x y : ℚ) (q : Int) :
    |signFactor neg * (x * 2 ^ q) - signFactor neg * (y * 2 ^ q)| = |x - y| * 2 ^ q := by
  rw [← mul_sub, ← sub_mul, abs_mul, abs_signFactor, one_mul, abs_mul, abs_of_pos (a := (2 : ℚ) ^ q) (by positivity)]

/-- `F64.roundPack` is round to nearest, ties to even (00_scope.md R5, 43_value_scaler.md R209): no datum is nearer to
the exact value than the one it packs, whose significand is even if another datum is equally near. -/
theorem roundPack_nearest (neg : Bool) (m : Nat) (e : Int) (c : Binary64)
    (fin : F64.isFinite (F64.roundPack neg m e) = true) :
    |F64.toRat (F64.roundPack neg m e) - exactValue neg m e| ≤ |F64.toRat c - exactValue neg m e| ∧
      (F64.toRat c ≠ F64.toRat (F64.roundPack neg m e) →
        |F64.toRat (F64.roundPack neg m e) - exactValue neg m e| = |F64.toRat c - exactValue neg m e| →
        F64.sig (F64.roundPack neg m e) % 2 = 0) := by
  have unit_pos : (0 : ℚ) < 2 ^ F64.unitExp m e := by positivity
  obtain ⟨value, parity⟩ := roundPack_of_finite neg m e fin
  obtain ⟨y, hc, hy⟩ := datum_in_units neg c (F64.unitExp m e)
  obtain ⟨le, even⟩ := roundedUnits_dist_le m e hy
  have exact_eq : exactValue neg m e = signFactor neg * (exactUnits m e * 2 ^ F64.unitExp m e) := by
    rw [exactUnits_mul_unit, exactValue]
  rw [value, parity, hc, exact_eq, exactValue, abs_sub_in_units, abs_sub_in_units]
  refine ⟨mul_le_mul_of_nonneg_right le unit_pos.le, fun ne tie => even ?_ (mul_right_cancel₀ unit_pos.ne' tie)⟩
  rintro rfl
  exact ne rfl

/-! ## Overflow -/

/-- The midpoint above the largest finite datum, `(2^53 - 1/2) × 2^971`. -/
theorem overflow_threshold_eq : (2 : ℚ) ^ 1024 - (2 : ℚ) ^ 970 = ((2 ^ 53 : Nat) - 1 / 2) * 2 ^ (971 : ℤ) := by
  have whole : (2 : ℚ) ^ 1024 = 2 ^ 54 * 2 ^ 970 := by rw [← pow_add]
  have half : (2 : ℚ) ^ (971 : ℤ) = 2 * 2 ^ 970 := by rw [← pow_succ']; rfl
  rw [whole, half]
  push_cast
  generalize (2 : ℚ) ^ 970 = u
  ring

/-- The packed bits reach those of an infinity from that midpoint on. -/
theorem infBits_le_roundedBits_iff {m : Nat} (hm : m ≠ 0) (e : Int) :
    F64.infBits ≤ roundedBits m e ↔ (2 : ℚ) ^ 1024 - (2 : ℚ) ^ 970 ≤ (m : ℚ) * 2 ^ e := by
  have minUnit := minExp_le_unitExp m e
  have le := roundedUnits_le m e
  have below := exactUnits_lt m e
  rw [overflow_threshold_eq, ← exactUnits_mul_unit]
  unfold roundedBits F64.infBits
  obtain low | at_top | high :
      F64.unitExp m e ≤ 970 ∨ F64.unitExp m e = 971 ∨ 972 ≤ F64.unitExp m e := by omega
  · have small : exactUnits m e * 2 ^ F64.unitExp m e < ((2 ^ 53 : Nat) - 1 / 2) * 2 ^ (971 : ℤ) :=
      calc exactUnits m e * 2 ^ F64.unitExp m e < 2 ^ 53 * 2 ^ F64.unitExp m e := by gcongr
        _ ≤ 2 ^ 53 * 2 ^ (971 - 1 : ℤ) := by gcongr; exacts [one_le_two, by omega]
        _ = 2 ^ 52 * 2 ^ (971 : ℤ) := by rw [zpow_sub_one₀ two_ne_zero]; ring
        _ ≤ ((2 ^ 53 : Nat) - 1 / 2) * 2 ^ (971 : ℤ) := by gcongr; norm_num
    exact iff_of_false (by omega) (not_le.mpr small)
  · rw [at_top, mul_le_mul_iff_left₀ (by positivity), ← (roundedUnits_nearestEven m e).even_le_iff (by decide)]
    omega
  · have normal := le_roundedUnits hm (e := e) (by omega)
    have large : ((2 ^ 53 : Nat) - 1 / 2) * 2 ^ (971 : ℤ) ≤ exactUnits m e * 2 ^ F64.unitExp m e :=
      calc (((2 ^ 53 : Nat) - 1 / 2) * 2 ^ (971 : ℤ) : ℚ) ≤ 2 ^ 53 * 2 ^ (971 : ℤ) := by gcongr; norm_num
        _ = 2 ^ 52 * 2 ^ (971 + 1 : ℤ) := by rw [zpow_add_one₀ two_ne_zero]; ring
        _ ≤ 2 ^ 52 * 2 ^ F64.unitExp m e := by gcongr; exacts [one_le_two, high]
        _ ≤ exactUnits m e * 2 ^ F64.unitExp m e := by gcongr; exact le_exactUnits hm (by omega)
    exact iff_of_true (by omega) large

theorem isInf_roundPack_iff (neg : Bool) (m : Nat) (e : Int) :
    F64.isInf (F64.roundPack neg m e) = true ↔ (2 : ℚ) ^ 1024 - (2 : ℚ) ^ 970 ≤ |exactValue neg m e| := by
  rw [abs_exactValue]
  by_cases hm : m = 0
  · subst hm
    refine iff_of_false ?_ ?_
    · rw [roundPack_zero, isInf_signed_iff neg (Nat.zero_le _)]
      decide
    · rw [overflow_threshold_eq, Nat.cast_zero, zero_mul, not_le]
      exact mul_pos (by norm_num) (by positivity)
  · rw [roundPack_eq neg hm, isInf_signed_iff neg (min_le_right _ _), min_eq_right_iff, infBits_le_roundedBits_iff hm]

/-! ## The product -/

theorem not_isNaN_of_isFinite {a : Binary64} (h : F64.isFinite a = true) : F64.isNaN a = false := by
  simp_all [F64.isFinite, F64.isNaN]

theorem not_isInf_of_isFinite {a : Binary64} (h : F64.isFinite a = true) : F64.isInf a = false := by
  simp_all [F64.isFinite, F64.isInf]

theorem mul_of_isFinite {a b : Binary64} (ha : F64.isFinite a = true) (hb : F64.isFinite b = true) :
    F64.mul a b =
      F64.roundPack (F64.sign a != F64.sign b) (F64.sig a * F64.sig b) (F64.exp a + F64.exp b) := by
  simp [F64.mul, not_isNaN_of_isFinite ha, not_isNaN_of_isFinite hb, not_isInf_of_isFinite ha,
    not_isInf_of_isFinite hb]

theorem toRat_mul_toRat (a b : Binary64) :
    F64.toRat a * F64.toRat b =
      exactValue (F64.sign a != F64.sign b) (F64.sig a * F64.sig b) (F64.exp a + F64.exp b) := by
  rw [toRat_eq_exactValue, toRat_eq_exactValue, exactValue_mul]

/-- Settles O40: a finite product is `F64.roundPack` of the exact product. -/
theorem productIsNearestBinary64 : Obligations.ProductIsNearestBinary64 := by
  intro a b c ha hb fin _
  rw [mul_of_isFinite ha hb] at fin ⊢
  rw [toRat_mul_toRat]
  exact (roundPack_nearest _ _ _ c fin).1

/-- Settles O41: a finite product is `F64.roundPack` of the exact product, which rounds ties to even and overflows from
the midpoint on. -/
theorem productTiesToEvenAndOverflows : Obligations.ProductTiesToEvenAndOverflows := by
  refine ⟨fun a b c ha hb fin _ => ?_, fun a b ha hb => ?_⟩
  · rw [mul_of_isFinite ha hb] at fin ⊢
    rw [toRat_mul_toRat]
    exact (roundPack_nearest _ _ _ c fin).2
  · rw [mul_of_isFinite ha hb, toRat_mul_toRat]
    exact isInf_roundPack_iff _ _ _

end Sys2Proof.Machine
end

section
/-! SUPPORT. The register update of each operation, said apart from how the operation ends, what of the configuration it
reads and what it leaves alone; and the statements O50, O53 and O54 (10_state.md R20 to R22). -/

namespace Sys2Proof.Machine

/-! ## The update of an operation -/

/-- The register update of an operation, before the end of the step where the operation has one. -/
def effect : Instr → State → State
  | .trWait, s | .trHold, s | .bitWait, s | .faultHold, s => s
  | .trEdge, s => { s with sR := s.idx, phase := .trFall }
  | .trMeasure, s => enterSync { s with h := s.idx - s.sR }
  | .syncLow, s => { s with runLen := s.runLen + 1 }
  | .syncBreak, s | .syncShort, s => { s with runLen := 0 }
  | .syncFire, s => acqLabel 0#5 (acquire 0#5 s)
  | .bitEdge k, s | .bitTimeout k, s => fieldOp k (acquire k s)
  | .acqLabel k, s => acqLabel k s
  | .acqLabelLast, s => acqLabelLast s
  | .acqSdi, s => acqSdi s
  | .acqSdiLast, s => acqSdiLast s
  | .acqData k, s => acqData k s
  | .acqDataLast, s => acqDataLast s
  | .acqSsm, s => acqSsm s
  | .acqSsmLast, s => acqSsmLast s
  | .acqParity, s => acqParity s
  | .resolveStatic, s => resolveStatic s
  | .resolveTable, s => resolveTable s
  | .scaleUnsigned, s => scaleWith unsignedStage s
  | .scaleSigned, s => scaleWith signedStage s
  | .scaleTwos, s => scaleWith twosStage s
  | .parityCheck, s => parityVerdict s

theorem exec_eq_effect (i : Instr) (s : State) :
    exec i s = if consumesSample i then endStep (effect i s) else .next (effect i s) := by
  cases i <;> rfl

/-- A next state is the update, followed by R121 or not. -/
theorem exec_next_cases {i : Instr} {s t : State} (h : exec i s = .next t) :
    t = consumeSample (effect i s) ∨ t = effect i s := by
  rw [exec_eq_effect] at h
  split at h
  · exact .inl ((endStep_next_iff _ _).mp h).2
  · exact .inr (Host.Outcome.next.inj h).symm

/-! ## The configuration is read-only (10_state.md R20) -/

/-- `t` holds the configuration, the static weight, the inputs but the lines, and the physical widths of `s`. -/
structure SameSetting (s t : State) : Prop where
  cfg : t.cfg = s.cfg
  stWeight : t.stWeight = s.stWeight
  cfgIn : t.cfgIn = s.cfgIn
  rst : t.rst = s.rst
  idxWidth : t.idxWidth = s.idxWidth
  cntWidth : t.cntWidth = s.cntWidth

theorem effect_sameSetting (i : Instr) (s : State) : SameSetting s (effect i s) := by
  cases i with
  | trWait | trHold | bitWait | faultHold | trEdge | trMeasure | syncLow | syncBreak | syncShort =>
    constructor <;> rfl
  | bitEdge k | bitTimeout k => constructor <;> simp [effect]
  | scaleUnsigned | scaleSigned | scaleTwos | resolveStatic | resolveTable | parityCheck =>
    constructor <;> simp [effect, resolveStatic, resolveTable]
  | syncFire | acqLabel k | acqData k => constructor <;> simp [effect, acqLabel, acqData]
  | acqLabelLast | acqSdi | acqSdiLast | acqDataLast | acqSsm | acqSsmLast | acqParity =>
    constructor <;> simp [effect, acqLabelLast, acqSdi, acqSdiLast, acqDataLast, acqSsm, acqSsmLast, acqParity]

theorem exec_sameSetting {i : Instr} {s t : State} (h : exec i s = .next t) : SameSetting s t := by
  obtain ⟨hcfg, hweight, hpins, hrst, hidx, hcnt⟩ := effect_sameSetting i s
  obtain rfl | rfl := exec_next_cases h <;> exact ⟨hcfg, hweight, hpins, hrst, hidx, hcnt⟩

@[simp] theorem resetChecks_cfg (s : State) : (resetChecks s).cfg = s.cfg := by
  obtain ⟨-, h⟩ | ⟨-, -, -, h⟩ | ⟨-, -, h⟩ := resetChecks_cases s <;> rw [h] <;> rfl

@[simp] theorem resetChecks_rst (s : State) : (resetChecks s).rst = s.rst := by
  obtain ⟨-, h⟩ | ⟨-, -, -, h⟩ | ⟨-, -, h⟩ := resetChecks_cases s <;> rw [h] <;> rfl

/-- Driving `rst` latches the presented configuration at a deassertion and writes none otherwise. -/
theorem driveRst_cfg {level : Bool} {s t : State} (h : driveRst level s = .next t) :
    t.cfg = s.cfg ∨ (s.rst = true ∧ t.rst = false ∧ t.cfg = s.cfgIn) := by
  obtain ⟨-, rfl⟩ | ⟨-, asserted, started⟩ | ⟨-, -, rfl⟩ := (driveRst_next_iff level s t).mp h
  · exact .inl rfl
  · obtain ⟨-, rfl⟩ := (startSession_next_iff _ t).mp started
    exact .inr ⟨asserted, by simp, by simp⟩
  · exact .inl rfl

theorem driveConfig_cfg {c : Cfg} {s t : State} (h : driveConfig c s = .next t) : t.cfg = s.cfg := by
  obtain ⟨-, rfl⟩ | ⟨-, -, rfl⟩ := (driveConfig_next_iff c s t).mp h <;> rfl

/-- Settles O50: no update of an operation writes its setting, and of the host's interactions only the deassertion of
`rst` latches a configuration. -/
theorem configurationIsReadOnly : Obligations.ConfigurationIsReadOnly := by
  refine ⟨fun i s t h => ?_, fun s t h => ?_⟩
  · obtain ⟨hcfg, hweight, hpins, hrst, hidx, hcnt⟩ := exec_sameSetting h
    exact ⟨hcfg, hweight, hpins, hrst, hidx, hcnt⟩
  · obtain ⟨-, rfl⟩ | ⟨level, rest, -, driven⟩ | ⟨c, rest, -, driven⟩ | ⟨x, rest, -, -, rfl⟩ |
      ⟨x, rest, i, u, -, -, -, run, rfl⟩ := step_next_cases h
    · exact .inl rfl
    · have latched := driveRst_cfg driven
      exact latched
    · have kept := driveConfig_cfg driven
      exact .inl kept
    · exact .inl rfl
    · exact .inl (exec_sameSetting run).cfg

/-! ## Operations under another configuration -/

/-- `s` with another latched configuration and static weight. -/
def State.reconfigure (c : Cfg) (w : Binary64) (s : State) : State := { s with cfg := c, stWeight := w }

/-- A result whose next state, if there is one, has another configuration and static weight. -/
def reconfigureNext (c : Cfg) (w : Binary64) : Result → Result
  | .next t => .next (t.reconfigure c w)
  | .fault f => .fault f
  | .refused r => .refused r

/-! What reads neither the configuration nor the static weight runs the same under any. -/

theorem endStep_reconfigure (c : Cfg) (w : Binary64) (s : State) :
    endStep (s.reconfigure c w) = reconfigureNext c w (endStep s) := by
  cases hf : (consumeSample s).fits with
  | true =>
    rw [endStep_of_fits hf]
    exact endStep_of_fits (s := s.reconfigure c w) hf
  | false =>
    rw [(endStep_refused_iff s _).mpr ⟨hf, rfl⟩]
    exact (endStep_refused_iff (s.reconfigure c w) _).mpr ⟨hf, rfl⟩

theorem acquire_reconfigure (k : BitIndex) (c : Cfg) (w : Binary64) (s : State) :
    acquire k (s.reconfigure c w) = (acquire k s).reconfigure c w := by
  rw [acquire_eq, acquire_eq]; rfl

theorem scaleWith_of_absent {s : State} (h : s.sel = none) (g : Entry → BitVec 19 → Scaled) : scaleWith g s = s := by
  rw [scaleWith, h]

theorem scaleWith_of_present {s : State} {e : Entry} (h : s.sel = some e) (g : Entry → BitVec 19 → Scaled) :
    scaleWith g s = emit (valueEvent (g e s.data) e s) s := by
  rw [scaleWith, h]

theorem scaleWith_reconfigure (g : Entry → BitVec 19 → Scaled) (c : Cfg) (w : Binary64) (s : State) :
    scaleWith g (s.reconfigure c w) = (scaleWith g s).reconfigure c w := by
  cases h : s.sel with
  | none =>
    rw [scaleWith_of_absent h]
    exact scaleWith_of_absent (s := s.reconfigure c w) h g
  | some e =>
    rw [scaleWith_of_present h]
    exact scaleWith_of_present (s := s.reconfigure c w) h g

theorem scaleWord_of_absent {s : State} (h : s.sel = none) : scaleWord s = s := by
  rw [scaleWord, h]

/-- Beside an entry, SCALE is one of its units, or nothing for the reserved sign mode. -/
theorem scaleWord_of_present {s : State} {e : Entry} (h : s.sel = some e) :
    scaleWord s =
      if e.signMode = 0#2 then scaleWith unsignedStage s
      else if e.signMode = 1#2 then scaleWith signedStage s
      else if e.signMode = 2#2 then scaleWith twosStage s
      else s := by
  rw [scaleWord, h]

theorem scaleWord_reconfigure (c : Cfg) (w : Binary64) (s : State) :
    scaleWord (s.reconfigure c w) = (scaleWord s).reconfigure c w := by
  cases h : s.sel with
  | none =>
    rw [scaleWord_of_absent h]
    exact scaleWord_of_absent (s := s.reconfigure c w) h
  | some e =>
    rw [scaleWord_of_present h, scaleWord_of_present (s := s.reconfigure c w) h]
    simp only [scaleWith_reconfigure]
    split_ifs <;> rfl

/-- The data field completed by its last bit and emitted, before it is scaled (42_field_extractor.md R175). -/
def closeData (s : State) : State :=
  emit (.data s.fieldStart s.spanEnd (s.data ||| (s.bitNow.setWidth 19 <<< 18)))
    { s with data := s.data ||| (s.bitNow.setWidth 19 <<< 18) }

theorem acqDataLast_eq (s : State) : acqDataLast s = nextBit 28#5 (scaleWord (closeData s)) := rfl

theorem acqDataLast_reconfigure (c : Cfg) (w : Binary64) (s : State) :
    acqDataLast (s.reconfigure c w) = (acqDataLast s).reconfigure c w := by
  have closed : closeData (s.reconfigure c w) = (closeData s).reconfigure c w := rfl
  rw [acqDataLast_eq, acqDataLast_eq, closed, scaleWord_reconfigure]
  rfl

/-! The resolution of a word is the one procedure that reads them. -/

/-- `c` and `w` resolve every word as `c₀` and `w₀` do. -/
def ResolveAlike (c₀ c : Cfg) (w₀ w : Binary64) : Prop :=
  ∀ u : State, u.cfg = c₀ → u.stWeight = w₀ → resolveWord (u.reconfigure c w) = (resolveWord u).reconfigure c w

/-- The SDI field completed by its last bit and emitted, before the word is resolved (42_field_extractor.md R173). -/
def closeSdi (s : State) : State :=
  emit (.sdi s.fieldStart s.spanEnd (s.sdi ||| (s.bitNow.setWidth 2 <<< 1)))
    { s with sdi := s.sdi ||| (s.bitNow.setWidth 2 <<< 1) }

theorem acqSdiLast_eq (s : State) : acqSdiLast s = nextBit 9#5 (resolveWord (closeSdi s)) := rfl

theorem acqSdiLast_reconfigure {s : State} {c : Cfg} {w : Binary64} (alike : ResolveAlike s.cfg c s.stWeight w) :
    acqSdiLast (s.reconfigure c w) = (acqSdiLast s).reconfigure c w := by
  have closed : closeSdi (s.reconfigure c w) = (closeSdi s).reconfigure c w := rfl
  rw [acqSdiLast_eq, acqSdiLast_eq, closed, alike (closeSdi s) rfl rfl]
  rfl

theorem fieldOp_reconfigure {s : State} {c : Cfg} {w : Binary64} (alike : ResolveAlike s.cfg c s.stWeight w)
    (k : BitIndex) : fieldOp k (s.reconfigure c w) = (fieldOp k s).reconfigure c w := by
  unfold fieldOp
  split_ifs
  · rfl
  · rfl
  · rfl
  · exact acqSdiLast_reconfigure alike
  · rfl
  · exact acqDataLast_reconfigure c w s
  · rfl
  · rfl
  · rfl

theorem effect_reconfigure {i : Instr} {s : State} {c : Cfg} {w : Binary64} (notStatic : i ≠ .resolveStatic)
    (notTable : i ≠ .resolveTable) (alike : ResolveAlike s.cfg c s.stWeight w) :
    effect i (s.reconfigure c w) = (effect i s).reconfigure c w := by
  cases i with
  | resolveStatic => exact absurd rfl notStatic
  | resolveTable => exact absurd rfl notTable
  | bitEdge k | bitTimeout k =>
    rw [effect, acquire_reconfigure]
    exact fieldOp_reconfigure (by simpa using alike) k
  | syncFire =>
    rw [effect, acquire_reconfigure]
    rfl
  | acqSdiLast => exact acqSdiLast_reconfigure alike
  | acqDataLast => exact acqDataLast_reconfigure c w s
  | scaleUnsigned => exact scaleWith_reconfigure _ c w s
  | scaleSigned => exact scaleWith_reconfigure _ c w s
  | scaleTwos => exact scaleWith_reconfigure _ c w s
  | _ => rfl

theorem exec_reconfigure {i : Instr} {s : State} {c : Cfg} {w : Binary64}
    (h : effect i (s.reconfigure c w) = (effect i s).reconfigure c w) :
    exec i (s.reconfigure c w) = reconfigureNext c w (exec i s) := by
  rw [exec_eq_effect, exec_eq_effect, h, endStep_reconfigure]
  split <;> rfl

/-! ## The value of SAMPLE_RATE (10_state.md R21) -/

/-- The resolution of a word as one update. -/
theorem resolveWord_eq (s : State) :
    resolveWord s =
      { s with
        sel :=
          if s.cfg.decEn then
            if s.cfg.mode then resolveTableKey (disp s.labelRaw) s.sdi s else resolveStaticKey (disp s.labelRaw) s.sdi s
          else s.sel } := by
  unfold resolveWord
  split_ifs <;> rfl

theorem resolveAlike_sampleRate (c : Cfg) (w r : Binary64) : ResolveAlike c { c with sampleRate := r } w w := by
  rintro u rfl rfl
  rw [resolveWord_eq, resolveWord_eq]
  rfl

/-- Settles O54: the sample rate is no operand of the resolution, and nothing else reads the configuration. -/
theorem sampleRateEntersNoOperation : Obligations.SampleRateEntersNoOperation := by
  intro i s t r h
  have update : effect i (s.reconfigure { s.cfg with sampleRate := r } s.stWeight) =
      (effect i s).reconfigure { s.cfg with sampleRate := r } s.stWeight := by
    by_cases notStatic : i = .resolveStatic
    · subst notStatic; rfl
    by_cases notTable : i = .resolveTable
    · subst notTable; rfl
    exact effect_reconfigure notStatic notTable (resolveAlike_sampleRate s.cfg s.stWeight r)
  have run := exec_reconfigure update
  rw [h] at run
  exact run.trans (by rw [reconfigureNext, State.reconfigure, ← (exec_sameSetting h).stWeight])

/-! ## Value decoding disabled (10_state.md R22) -/

theorem resolveWord_of_not_decEn {s : State} (h : s.cfg.decEn = false) : resolveWord s = s := by
  rw [resolveWord, if_neg (by simp [h])]

theorem resolveAlike_of_not_decEn {c₀ c : Cfg} (h₀ : c₀.decEn = false) (h : c.decEn = false) (w₀ w : Binary64) :
    ResolveAlike c₀ c w₀ w := by
  rintro u rfl -
  rw [resolveWord_of_not_decEn h₀, resolveWord_of_not_decEn (s := u.reconfigure c w) h]

/-- From `s` to `t` no entry comes into `sel` and no `Value` into the events. -/
structure NoValue (s t : State) : Prop where
  sel : t.sel = none
  emitted : ∃ more, t.out = s.out ++ more ∧ ∀ ev ∈ more, ev.kind ≠ 7

theorem NoValue.trans {s t u : State} (h₁ : NoValue s t) (h₂ : NoValue t u) : NoValue s u := by
  obtain ⟨-, more, hmore, hkind⟩ := h₁
  obtain ⟨hsel, more', hmore', hkind'⟩ := h₂
  refine ⟨hsel, more ++ more', by rw [hmore', hmore, List.append_assoc], fun ev hev => ?_⟩
  exact (List.mem_append.mp hev).elim (hkind ev) (hkind' ev)

theorem noValue_of_emits {s t : State} (more : List Event) (hsel : t.sel = none) (hout : t.out = s.out ++ more)
    (hkind : more.all (fun ev => ev.kind != 7) = true) : NoValue s t :=
  ⟨hsel, more, hout, fun ev hev => by simpa using List.all_eq_true.mp hkind ev hev⟩

theorem noValue_of_silent {s t : State} (hsel : t.sel = none) (hout : t.out = s.out) : NoValue s t :=
  noValue_of_emits [] hsel (by simp [hout]) rfl

theorem acquire_noValue {s : State} (hsel : s.sel = none) (k : BitIndex) : NoValue s (acquire k s) :=
  noValue_of_emits _ (by simp [hsel]) (acquire_out k s) rfl

theorem acqSdiLast_noValue {s : State} (hsel : s.sel = none) (off : s.cfg.decEn = false) : NoValue s (acqSdiLast s) := by
  rw [acqSdiLast_eq, resolveWord_of_not_decEn (s := closeSdi s) off]
  exact noValue_of_emits [_] hsel rfl rfl

theorem acqDataLast_noValue {s : State} (hsel : s.sel = none) : NoValue s (acqDataLast s) := by
  rw [acqDataLast_eq, scaleWord_of_absent (s := closeData s) hsel]
  exact noValue_of_emits [_] hsel rfl rfl

theorem acqParity_noValue (s : State) : NoValue s (acqParity s) :=
  noValue_of_emits ([_] ++ [_]) rfl (List.append_assoc s.out _ _) rfl

theorem fieldOp_noValue {s : State} (hsel : s.sel = none) (off : s.cfg.decEn = false) (k : BitIndex) :
    NoValue s (fieldOp k s) := by
  unfold fieldOp
  split_ifs
  · exact noValue_of_silent hsel rfl
  · exact noValue_of_emits [_] hsel rfl rfl
  · exact noValue_of_silent hsel rfl
  · exact acqSdiLast_noValue hsel off
  · exact noValue_of_silent hsel rfl
  · exact acqDataLast_noValue hsel
  · exact noValue_of_silent hsel rfl
  · exact noValue_of_emits [_] hsel rfl rfl
  · exact acqParity_noValue s

theorem effect_noValue {i : Instr} {s : State} (notStatic : i ≠ .resolveStatic) (notTable : i ≠ .resolveTable)
    (hsel : s.sel = none) (off : s.cfg.decEn = false) : NoValue s (effect i s) := by
  cases i with
  | resolveStatic => exact absurd rfl notStatic
  | resolveTable => exact absurd rfl notTable
  | bitEdge k | bitTimeout k =>
    have acquired := acquire_noValue hsel k
    exact acquired.trans (fieldOp_noValue acquired.sel (by simpa using off) k)
  | syncFire =>
    have acquired := acquire_noValue hsel 0#5
    exact acquired.trans (noValue_of_silent acquired.sel rfl)
  | scaleUnsigned | scaleSigned | scaleTwos =>
    rw [effect, scaleWith_of_absent hsel]
    exact noValue_of_silent hsel rfl
  | acqSdiLast => exact acqSdiLast_noValue hsel off
  | acqDataLast => exact acqDataLast_noValue hsel
  | acqParity => exact acqParity_noValue s
  | acqLabelLast | acqSsmLast | parityCheck => exact noValue_of_emits [_] hsel rfl rfl
  | _ => exact noValue_of_silent hsel rfl

/-- Settles O53: without DEC_EN no word is resolved, so the configuration is not read, `sel` stays absent and nothing is
scaled. -/
theorem resolverFieldsUnreadWithoutDecoding : Obligations.ResolverFieldsUnreadWithoutDecoding := by
  intro i s c w notStatic notTable hsel off off'
  have alike := resolveAlike_of_not_decEn off off' s.stWeight w
  have run := exec_reconfigure (effect_reconfigure notStatic notTable alike)
  refine ⟨fun t h => ?_, fun r h => ?_⟩
  · rw [h] at run
    obtain ⟨absent, emitted⟩ := effect_noValue notStatic notTable hsel off
    obtain rfl | rfl := exec_next_cases h <;> exact ⟨run, absent, emitted⟩
  · rw [h] at run
    exact run

end Sys2Proof.Machine
end

section
/-! SUPPORT. The five checks of a configuration, each in the words of 10_state.md R34, what the reset sequence answers
when one fails, and the statement O47. -/

namespace Sys2Proof.Machine

/-! ## The checks, part by part -/

theorem isDisplay_iff (d : Nat) :
    isDisplay d = true ↔ ∃ d2 d1 d0, d2 ≤ 3 ∧ d1 ≤ 7 ∧ d0 ≤ 7 ∧ d = d2 * 100 + d1 * 10 + d0 := by
  rw [isDisplay, decide_eq_true_eq]
  constructor
  · rintro ⟨h2, h1, h0⟩
    exact ⟨d / 100, d / 10 % 10, d % 10, h2, h1, h0, by omega⟩
  · rintro ⟨d2, d1, d0, h2, h1, h0, rfl⟩
    omega

theorem windowOk_iff (first last : BitVec 5) :
    windowOk first last = true ↔ 11 ≤ first.toNat ∧ first.toNat ≤ last.toNat ∧ last.toNat ≤ 29 :=
  decide_eq_true_iff

/-- The hidden bit makes the significand of a normal datum positive, so only the zeros have significand 0. -/
theorem sig_eq_zero_iff (a : Binary64) : F64.sig a = 0 ↔ F64.isZero a = true := by
  rw [F64.sig, F64.isZero, Bool.and_eq_true, beq_iff_eq, beq_iff_eq]
  split <;> omega

theorem toRat_pos_iff (a : Binary64) : 0 < F64.toRat a ↔ F64.sign a = false ∧ F64.isZero a = false := by
  have magnitude : 0 < (F64.sig a : ℚ) * 2 ^ F64.exp a ↔ F64.isZero a = false := by
    rw [mul_pos_iff_of_pos_right (by positivity), Nat.cast_pos, Nat.pos_iff_ne_zero, Ne, sig_eq_zero_iff,
      Bool.not_eq_true]
  have nonneg : 0 ≤ (F64.sig a : ℚ) * 2 ^ F64.exp a := by positivity
  rw [toRat_eq_exactValue, exactValue, signFactor]
  cases F64.sign a with
  | false => simpa using magnitude
  | true => simpa using nonneg

theorem positiveFinite_iff (a : Binary64) : positiveFinite a = true ↔ F64.isFinite a = true ∧ 0 < F64.toRat a := by
  rw [positiveFinite, toRat_pos_iff]
  simp [and_assoc, and_comm]

/-! ## The five checks (10_state.md R34) -/

/-- WF_CTRL: the reserved bits are the top three. -/
theorem wfCtrl_iff (c : Cfg) : c.wfCtrl = true ↔ c.ctrl.toNat < 2 ^ 5 := by
  have := c.ctrl.isLt
  rw [Cfg.wfCtrl, Cfg.ctrlReserved, beq_iff_eq, ← BitVec.toNat_inj, BitVec.extractLsb'_toNat, BitVec.toNat_ofNat,
    Nat.shiftRight_eq_div_pow]
  omega

/-- WF_RATE. -/
theorem wfRate_iff (c : Cfg) :
    c.wfRate = true ↔ (c.srValid = true → F64.isFinite c.sampleRate = true ∧ 0 < F64.toRat c.sampleRate) := by
  rw [← positiveFinite_iff, Cfg.wfRate]
  cases c.srValid <;> simp

/-- WF_ST_KEY. -/
theorem wfStKey_iff (c : Cfg) :
    c.wfStKey = true ↔ (c.staticMode = true → isDisplay c.stAddr.toNat = true ∧ c.stIdent.toNat ≤ 4) := by
  rw [Cfg.wfStKey]
  cases c.staticMode <;> simp

/-- WF_ST_WIN. -/
theorem wfStWin_iff (c : Cfg) :
    c.wfStWin = true ↔ (c.staticMode = true → windowOk c.stFirst c.stLast = true ∧ c.stSmode.toNat ≤ 2) := by
  rw [Cfg.wfStWin]
  cases c.staticMode <;> simp

/-- One entry of WF_LUT. -/
theorem LutEntry.wf_iff (e : LutEntry) :
    e.wf = true ↔
      isDisplay e.address.toNat = true ∧ e.identifier.toNat ≤ 3 ∧ windowOk e.firstBit e.lastBit = true ∧
        e.signMode.toNat ≤ 2 := by
  simp [LutEntry.wf, and_assoc]

/-- WF_LUT. -/
theorem wfLut_iff (c : Cfg) :
    c.wfLut = true ↔ (c.tableMode = true ∧ c.tblPresent = true → ∀ e ∈ c.lut, e.wf = true) := by
  rw [Cfg.wfLut, Bool.or_eq_true, Bool.not_eq_true', List.all_eq_true, ← Bool.and_eq_true]
  cases c.tableMode && c.tblPresent <;> simp

theorem staticMode_iff (c : Cfg) : c.staticMode = true ↔ c.decEn = true ∧ c.mode = false := by
  rw [Cfg.staticMode, Bool.and_eq_true, Bool.not_eq_true']

theorem tableMode_iff (c : Cfg) : c.tableMode = true ↔ c.decEn = true ∧ c.mode = true := by
  rw [Cfg.tableMode, Bool.and_eq_true]

theorem check_eq_none_iff (c : Cfg) :
    c.check = none ↔
      c.wfCtrl = true ∧ c.wfRate = true ∧ c.wfStKey = true ∧ c.wfStWin = true ∧ c.wfLut = true := by
  unfold Cfg.check
  split_ifs <;> simp_all

/-! ## The refusal -/

theorem step_driveRst {s : State} {level : Bool} {rest : List HostInput} (hhost : s.host = .rst level :: rest) :
    step s = driveRst level { s with host := rest, out := [] } := by
  rw [step, fetch, hhost]

theorem startSession_of_failed {s : State} {failed : ConfigCheck} (h : s.cfgIn.check = some failed) :
    startSession s = .refused (.illFormedConfig failed) := by
  rw [startSession, h]

theorem driveRst_of_failed {s : State} {failed : ConfigCheck} (hrst : s.rst = true)
    (h : s.cfgIn.check = some failed) : driveRst false s = .refused (.illFormedConfig failed) := by
  rw [driveRst, if_neg Bool.false_ne_true, if_pos hrst]
  exact startSession_of_failed h

/-- Settles O47: each check is its clause, and the deassertion of `rst` runs the reset sequence, which checks first. -/
theorem illFormedConfigurationIsRefused : Obligations.IllFormedConfigurationIsRefused := by
  refine ⟨fun c => ?_, fun s rest failed hrst hhost hfailed => ?_⟩
  · rw [check_eq_none_iff, wfCtrl_iff, wfRate_iff, wfStKey_iff, wfStWin_iff, wfLut_iff]
    simp only [LutEntry.wf_iff, isDisplay_iff, windowOk_iff, staticMode_iff, tableMode_iff]
    refine and_congr_right fun _ => and_congr_right fun _ => ?_
    rw [← and_assoc, ← imp_and]
    simp only [and_assoc]
  · rw [step_driveRst hhost]
    exact driveRst_of_failed hrst hfailed

end Sys2Proof.Machine
end

section
/-! SUPPORT. The host's interactions that run no operation, what a step does with the event stream, and the statements
O48 and O60 (20_memory.md R65, R67, R68). -/

namespace Sys2Proof.Machine

/-! ## The configuration inputs (20_memory.md R68) -/

theorem step_driveConfig {s : State} {c : Cfg} {rest : List HostInput} (hhost : s.host = .config c :: rest) :
    step s = driveConfig c { s with host := rest, out := [] } := by
  rw [step, fetch, hhost]

theorem driveConfig_of_changed {s : State} {c : Cfg} (hrst : s.rst = false) (hc : c ≠ s.cfgIn) :
    driveConfig c s = .refused .configChanged := by
  rw [driveConfig, if_neg (by simp [hrst]), if_neg hc]

/-- Settles O48: one branch of `driveConfig` for each clause. -/
theorem configurationChangeIsRefused : Obligations.ConfigurationChangeIsRefused := by
  intro s c rest hhost
  rw [step_driveConfig hhost]
  refine ⟨fun hrst hc => ?_, fun hrst hc => ?_, fun hrst => ?_⟩
  · exact driveConfig_of_changed hrst hc
  · exact (driveConfig_next_iff _ _ _).mpr (.inr ⟨hrst, hc, rfl⟩)
  · exact (driveConfig_next_iff _ _ _).mpr (.inl ⟨hrst, rfl⟩)

/-! ## The event stream -/

@[simp] theorem resetChecks_out (s : State) : (resetChecks s).out = s.out := by
  obtain ⟨-, h⟩ | ⟨-, -, -, h⟩ | ⟨-, -, h⟩ := resetChecks_cases s <;> rw [h] <;> rfl

@[simp] theorem resetChecks_stream (s : State) : (resetChecks s).stream = s.stream := by
  obtain ⟨-, h⟩ | ⟨-, -, -, h⟩ | ⟨-, -, h⟩ := resetChecks_cases s <;> rw [h] <;> rfl

@[simp] theorem resetChecks_earlier (s : State) : (resetChecks s).earlier = s.earlier := by
  obtain ⟨-, h⟩ | ⟨-, -, -, h⟩ | ⟨-, -, h⟩ := resetChecks_cases s <;> rw [h] <;> rfl

/-- No operation writes the stream: the step delivers to it (20_memory.md R67). -/
@[simp] theorem effect_stream (i : Instr) (s : State) : (effect i s).stream = s.stream := by
  cases i with
  | trWait | trHold | bitWait | faultHold | trEdge | trMeasure | syncLow | syncBreak | syncShort => rfl
  | bitEdge k | bitTimeout k => simp [effect]
  | scaleUnsigned | scaleSigned | scaleTwos | resolveStatic | resolveTable | parityCheck =>
    simp [effect, resolveStatic, resolveTable]
  | syncFire | acqLabel k | acqData k => simp [effect, acqLabel, acqData]
  | acqLabelLast | acqSdi | acqSdiLast | acqDataLast | acqSsm | acqSsmLast | acqParity =>
    simp [effect, acqLabelLast, acqSdi, acqSdiLast, acqDataLast, acqSsm, acqSsmLast, acqParity]

theorem exec_stream {i : Instr} {s t : State} (h : exec i s = .next t) : t.stream = s.stream := by
  obtain rfl | rfl := exec_next_cases h <;> simp

/-- With the event port emptied, driving `rst` leaves the stream, or starts a session and keeps the stream in
`earlier`. -/
theorem driveRst_stream {level : Bool} {s t : State} (hout : s.out = []) (h : driveRst level s = .next t) :
    t.stream = s.stream ++ t.out ∨
      (s.rst = true ∧ t.rst = false ∧ t.stream = [] ∧ t.out = [] ∧ t.earlier = s.earlier ++ s.stream) := by
  obtain ⟨-, rfl⟩ | ⟨-, asserted, started⟩ | ⟨-, -, rfl⟩ := (driveRst_next_iff level s t).mp h
  · exact .inl (by simp [hout])
  · obtain ⟨-, rfl⟩ := (startSession_next_iff _ t).mp started
    exact .inr ⟨asserted, by simp, by simp, by simp, by simp⟩
  · exact .inl (by simp [hout])

theorem driveConfig_stream {c : Cfg} {s t : State} (hout : s.out = []) (h : driveConfig c s = .next t) :
    t.stream = s.stream ++ t.out := by
  obtain ⟨-, rfl⟩ | ⟨-, -, rfl⟩ := (driveConfig_next_iff c s t).mp h <;> simp [hout]

/-- Settles O60: an operation leaves the stream to the delivery, and of the interactions that run none only the
deassertion of `rst` touches it. -/
theorem streamOnlyGrows : Obligations.StreamOnlyGrows := by
  intro s t h
  obtain stopped | ⟨level, rest, -, driven⟩ | ⟨c, rest, -, driven⟩ | ⟨x, rest, -, -, rfl⟩ |
    ⟨x, rest, i, u, -, -, -, run, rfl⟩ := step_next_cases h
  · exact .inl stopped
  · have driven := driveRst_stream rfl driven
    exact .inr driven
  · have driven := driveConfig_stream rfl driven
    exact .inr (.inl driven)
  · exact .inr (.inl (List.append_nil s.stream).symm)
  · have kept := exec_stream run
    exact .inr (.inl (by rw [kept]))

end Sys2Proof.Machine
end

section
/-! SUPPORT. Every step keeps the invariant `State.Inv` of Safety.lean: the row a dispatch word selects, what a step at a
sample leaves, and the clauses of the invariant for each. -/

namespace Sys2Proof.Machine

/-! ## The selected row (30_encoding.md R101) -/

/-- The operation that the phase and the conditions of a state select. -/
def State.selected (s : State) : Instr :=
  match s.phase with
  | .trRise => if s.rise then .trEdge else .trWait
  | .trFall => if s.fall then .trMeasure else .trHold
  | .sync =>
    if s.rise then (if s.gapOk then .syncFire else .syncShort) else (if s.low then .syncLow else .syncBreak)
  | .bit => if s.rise then .bitEdge s.k else (if s.tmo then .bitTimeout s.k else .bitWait)
  | .fault => .faultHold

theorem decodeDispatch_dispatchWord (s : State) : decodeDispatch s.dispatchWord = .ok s.selected := by
  rw [decodeDispatch, dispatchWord_pad, dispatchWord_ph, dispatchWord_rise, dispatchWord_fall, dispatchWord_low,
    dispatchWord_gapOk, dispatchWord_tmo, dispatchWord_k, State.selected]
  cases s.phase <;> simp [Phase.code] <;> split_ifs <;> rfl

/-- What the selected operation can leave at a sample, by phase; BIT_WAIT is selected before the bound only. -/
inductive SampleStep (s : State) : State → Prop
  | hold : s.phase = .fault → SampleStep s s
  | wait (n : Nat) : s.phase ≠ .fault → (s.phase = .bit → s.tmo = false) →
      SampleStep s (consumeSample { s with runLen := n })
  | edge : s.phase = .trRise → SampleStep s (consumeSample { s with sR := s.idx, phase := .trFall })
  | measure : s.phase = .trFall → SampleStep s (consumeSample (enterSync { s with h := s.idx - s.sR }))
  | acquire (k : BitIndex) : (s.phase = .sync ∧ k = 0#5) ∨ (s.phase = .bit ∧ k = s.k) →
      SampleStep s (consumeSample (fieldOp k (acquire k s)))

theorem effect_selected (s : State) (running : s.phase ≠ .fault) :
    consumesSample s.selected = true ∧ SampleStep s (consumeSample (effect s.selected s)) := by
  rw [State.selected]
  cases hphase : s.phase with
  | fault => exact absurd hphase running
  | trRise =>
    dsimp only
    split
    · exact ⟨rfl, .edge hphase⟩
    · exact ⟨rfl, .wait _ running (by simp [hphase])⟩
  | trFall =>
    dsimp only
    split
    · exact ⟨rfl, .measure hphase⟩
    · exact ⟨rfl, .wait _ running (by simp [hphase])⟩
  | sync =>
    dsimp only
    split_ifs
    · exact ⟨rfl, .acquire 0#5 (.inl ⟨hphase, rfl⟩)⟩
    all_goals exact ⟨rfl, .wait _ running (by simp [hphase])⟩
  | bit =>
    dsimp only
    split_ifs with _ timeout
    · exact ⟨rfl, .acquire s.k (.inr ⟨hphase, rfl⟩)⟩
    · exact ⟨rfl, .acquire s.k (.inr ⟨hphase, rfl⟩)⟩
    · exact ⟨rfl, .wait _ running fun _ => by simpa using timeout⟩

theorem exec_selected {s t : State} (h : exec s.selected s = .next t) : SampleStep s t := by
  by_cases hphase : s.phase = .fault
  · have held : s.selected = .faultHold := by rw [State.selected, hphase]
    rw [held] at h
    obtain rfl : s = t := Host.Outcome.next.inj h
    exact .hold hphase
  · obtain ⟨consumes, sampled⟩ := effect_selected s hphase
    rw [exec_eq_effect, if_pos consumes] at h
    obtain ⟨-, rfl⟩ := (endStep_next_iff _ _).mp h
    exact sampled

/-! ## The bits received (30_encoding.md R87) -/

/-- Field register `v`, whose first bit is bit `first` of the word, after bit `k` of value `b`. -/
def receive {w : Nat} (first : Nat) (k : BitIndex) (b : Bit) (v : BitVec w) : BitVec w :=
  if first ≤ k.toNat ∧ k.toNat < first + w then v ||| (b.setWidth w <<< (k.toNat - first)) else v

theorem toNat_shifted_bit_lt {w : Nat} (b : Bit) (j : Nat) : (b.setWidth w <<< j).toNat < 2 ^ (j + 1) := by
  calc (b.setWidth w <<< j).toNat ≤ (b.setWidth w).toNat <<< j := by
        rw [BitVec.toNat_shiftLeft]; exact Nat.mod_le _ _
    _ ≤ b.toNat * 2 ^ j := by
        rw [Nat.shiftLeft_eq, BitVec.toNat_setWidth]; gcongr; exact Nat.mod_le _ _
    _ < 2 ^ (j + 1) := by rw [pow_succ']; gcongr; exact b.isLt

/-- Bits not yet received are 0, before and after bit `k`. -/
theorem receive_lt {w first : Nat} {k : BitIndex} {v : BitVec w} (b : Bit) (h : v.toNat < 2 ^ (k.toNat - first)) :
    (receive first k b v).toNat < 2 ^ (k.toNat + 1 - first) := by
  have wider : 2 ^ (k.toNat - first) ≤ 2 ^ (k.toNat + 1 - first) := Nat.pow_le_pow_right two_pos (by omega)
  unfold receive
  split
  · have shifted := toNat_shifted_bit_lt (w := w) b (k.toNat - first)
    rw [show k.toNat - first + 1 = k.toNat + 1 - first by omega] at shifted
    rw [BitVec.toNat_or]
    exact Nat.or_lt_two_pow (h.trans_le wider) shifted
  · exact h.trans_le wider

/-! ## A bit before the last of a word -/

/-- What the field operation of a bit before the last leaves in the registers of the word, `NEXT_BIT` included. -/
structure Advances (k : BitIndex) (s t : State) : Prop where
  phase : t.phase = .bit
  counter : t.k = k + 1#5
  eLast : t.eLast = s.idx
  labelRaw : t.labelRaw = receive 0 k s.bitNow s.labelRaw
  sdi : t.sdi = receive 8 k s.bitNow s.sdi
  data : t.data = receive 10 k s.bitNow s.data
  ssm : t.ssm = receive 29 k s.bitNow s.ssm
  par : t.par = s.par
  sel : t.sel = if k = 9#5 then (resolveWord (closeSdi s)).sel else s.sel
  phStart : t.phStart = s.phStart
  phStop : t.phStop = s.phStop

theorem fieldOp_advances {k : BitIndex} (hk : k ≠ 31#5) (s : State) : Advances k s (fieldOp k s) := by
  obtain ⟨le, h⟩ | ⟨rfl, h⟩ | ⟨rfl, h⟩ | ⟨rfl, h⟩ | ⟨ge, le, h⟩ | ⟨rfl, h⟩ | ⟨rfl, h⟩ | ⟨rfl, h⟩ | ⟨last, -⟩ :=
    fieldOp_cases k s
  · rw [h]
    have ne : k ≠ 9#5 := by rintro rfl; simp at le
    constructor <;> simp [acqLabel, receive, ne] <;> omega
  · rw [h]; constructor <;> simp [acqLabelLast, receive]
  · rw [h]; constructor <;> simp [acqSdi, receive]
  · rw [h]; constructor <;> simp [acqSdiLast_eq, closeSdi, receive]
  · rw [h]
    have ne : k ≠ 9#5 := by rintro rfl; simp at ge
    constructor <;> simp [acqData, receive, ne] <;> omega
  · rw [h]; constructor <;> simp [acqDataLast, receive]
  · rw [h]; constructor <;> simp [acqSsm, receive]
  · rw [h]; constructor <;> simp [acqSsmLast, receive]
  · exact absurd last hk

/-! ## The registers that ACQUIRE writes (42_field_extractor.md R165, 43_value_scaler.md R207) -/

theorem acquire_wordStart (k : BitIndex) (s : State) :
    (acquire k s).wordStart = if k = 0#5 then s.idx else s.wordStart := by rw [acquire_eq]

theorem acquire_fieldStart (k : BitIndex) (s : State) :
    (acquire k s).fieldStart = if isFieldStart k = true then s.idx else s.fieldStart := by rw [acquire_eq]

theorem acquire_phStart_of_absent {s : State} (h : s.sel = none) (k : BitIndex) :
    (acquire k s).phStart = s.phStart := by rw [acquire_eq, h]

theorem acquire_phStop_of_absent {s : State} (h : s.sel = none) (k : BitIndex) :
    (acquire k s).phStop = s.phStop := by rw [acquire_eq, h]

theorem legal_iff (e : Entry) : e.legal = true ↔ windowOk e.firstBit e.lastBit = true ∧ e.signMode.toNat ≤ 2 := by
  rw [Entry.legal, Bool.and_eq_true, decide_eq_true_iff]

/-- The window of an entry that the scaler accepts (10_state.md R34). -/
theorem window_of_legal {e : Entry} (h : e.legal = true) : 11 ≤ e.f ∧ e.f ≤ e.l ∧ e.l ≤ 29 :=
  (windowOk_iff _ _).mp ((legal_iff e).mp h).1

/-- `phStart` is captured at the bit before data bit number `f`, which is counted from 1. -/
theorem acquire_phStart_of_present {s : State} {e : Entry} (h : s.sel = some e) (legal : e.legal = true)
    (k : BitIndex) : (acquire k s).phStart = if k.toNat + 1 = e.f then some s.idx else s.phStart := by
  have window := window_of_legal legal
  have leads : (isDataBit k = true ∧ k.toNat - 10 = e.f - 11) ↔ k.toNat + 1 = e.f := by
    rw [isDataBit, decide_eq_true_iff]; omega
  rw [acquire_eq, h]
  simp only [leads]

theorem acquire_phStop_of_present {s : State} {e : Entry} (h : s.sel = some e) (k : BitIndex) :
    (acquire k s).phStop = if e.stopJ ≤ 18 ∧ k.toNat = e.stopJ + 10 then some s.idx else s.phStop := by
  have ends : (isDataBit k = true ∧ k.toNat - 10 = e.stopJ) ↔ e.stopJ ≤ 18 ∧ k.toNat = e.stopJ + 10 := by
    rw [isDataBit, decide_eq_true_iff]; omega
  rw [acquire_eq, h]
  simp only [ends]

/-! ## The resolved entry -/

/-- A resolved entry passed the checks of its configuration (10_state.md R34). -/
theorem resolveWord_legal {s : State} {e : Entry} (wf : s.cfg.check = none)
    (present : s.cfg.tableMode = true → s.cfg.tblPresent = true) (absent : s.sel = none)
    (h : (resolveWord s).sel = some e) : s.cfg.decEn = true ∧ e.legal = true := by
  obtain ⟨-, -, -, window, lut⟩ := (check_eq_none_iff _).mp wf
  rw [resolveWord_eq] at h
  cases on : s.cfg.decEn with
  | false => simp [on, absent] at h
  | true =>
    refine ⟨rfl, ?_⟩
    cases hmode : s.cfg.mode with
    | false =>
      simp only [on, hmode, if_true, Bool.false_eq_true, if_false, resolveStaticKey] at h
      split at h
      · obtain rfl := Option.some.inj h
        rw [wfStWin_iff, staticMode_iff] at window
        exact (legal_iff _).mpr (window ⟨on, hmode⟩)
      · cases h
    | true =>
      simp only [on, hmode, if_true] at h
      obtain ⟨r, mem, -, -, rfl⟩ := resolveTableKey_some h
      have table := (tableMode_iff _).mpr ⟨on, hmode⟩
      exact LutEntry.entry_legal ((wfLut_iff _).mp lut ⟨table, present table⟩ r mem)

/-! ## The invariant at the ports and at reset -/

/-- The invariant speaks of the ports only where the configuration inputs are held (20_memory.md R68). -/
theorem State.Inv.atPorts {s : State} (hs : s.Inv) {r : Bool} {c : Cfg} (pins : r = false → c = s.cfg) (x : Sample)
    (out stream : List Event) (host : List HostInput) :
    State.Inv { s with rst := r, cfgIn := c, line := x, out := out, stream := stream, host := host } :=
  { hs with pinsHeld := pins }

/-- The reset values meet the invariant, in `TR_RISE` or faulted. -/
theorem inv_resetRegisters {s : State} {phase : Phase} {code : BitVec 2} (wf : s.cfgIn.check = none)
    (hphase : phase = .trRise ∨ phase = .fault) (fault : phase = .fault ↔ code ≠ 0#2) (legal : code ≠ 3#2)
    (passed : phase ≠ .fault →
      s.cfgIn.srValid = true ∧ (s.cfgIn.tableMode = true → s.cfgIn.tblPresent = true)) :
    State.Inv { resetRegisters s.cfgIn s with phase := phase, faultCode := code } := by
  have notSync : phase ≠ .sync := by rcases hphase with rfl | rfl <;> decide
  have notBit : phase ≠ .bit := by rcases hphase with rfl | rfl <;> decide
  have notTrFall : phase ≠ .trFall := by rcases hphase with rfl | rfl <;> decide
  constructor
  case cfgWellFormed => exact wf
  case weightLatched => rfl
  case faultIffCode => exact fault
  case faultCodeLegal => exact legal
  case runningChecked => exact passed
  all_goals simp [State.registersAtReset, notSync, notBit, notTrFall]

/-- A session starts within the invariant, whatever the reset checks find (60_exceptions.md R261). -/
theorem inv_resetChecks {s : State} (wf : s.cfgIn.check = none) :
    State.Inv (resetChecks (resetRegisters s.cfgIn s)) := by
  obtain ⟨-, h⟩ | ⟨-, -, -, h⟩ | ⟨rate, table, h⟩ := resetChecks_cases (resetRegisters s.cfgIn s)
  · rw [h]
    exact inv_resetRegisters wf (.inr rfl) (by decide) (by decide) (by simp)
  · rw [h]
    exact inv_resetRegisters wf (.inr rfl) (by decide) (by decide) (by simp)
  · rw [h]
    exact inv_resetRegisters (code := 0#2) wf (.inl rfl) (by decide) (by decide) fun _ => ⟨rate, table⟩

/-! ## The invariant at a sample -/

theorem fieldOp_last {k : BitIndex} (hk : k = 31#5) (s : State) : fieldOp k s = acqParity s := by
  rw [hk]; rfl

theorem toNat_succ_of_ne_last {k : BitIndex} (hk : k ≠ 31#5) : (k + 1#5).toNat = k.toNat + 1 := by
  have lt := k.isLt
  have ne : k.toNat ≠ 31 := fun last => hk (BitVec.eq_of_toNat_eq last)
  exact BitVec.toNat_add_of_lt (by rw [BitVec.toNat_ofNat]; omega)

theorem eq_or_of_ite_eq_some {c : Prop} [Decidable c] {i p : Nat} {o : Option Nat}
    (h : (if c then some i else o) = some p) : p = i ∨ o = some p := by
  split at h
  · exact .inl (Option.some.inj h).symm
  · exact .inr h

namespace State.Inv

/-- A step that only counts. -/
theorem consume {s : State} (hs : s.Inv) (running : s.phase ≠ .fault) (waits : s.phase = .bit → s.tmo = false) :
    State.Inv (consumeSample s) :=
  { hs with
    prevAfterFirst := by simp
    faultAtReset := fun faulted => absurd faulted running
    trFallTiming := fun phase => ⟨(hs.trFallTiming phase).1, Nat.lt_succ_of_lt (hs.trFallTiming phase).2⟩
    waitBounded := fun phase => by
      have bound := hs.waitBounded phase
      have early : s.idx ≠ s.eLast + 2 * s.h + s.h := of_decide_eq_false (waits phase)
      rw [consumeSample_idx, consumeSample_eLast, consumeSample_h]
      omega }

theorem setRunLen {s : State} (hs : s.Inv) (running : s.phase ≠ .fault) (n : Nat) :
    State.Inv { s with runLen := n } :=
  { hs with faultAtReset := fun faulted => absurd faulted running }

theorem edge {s : State} (hs : s.Inv) (hphase : s.phase = .trRise) :
    State.Inv (consumeSample { s with sR := s.idx, phase := .trFall }) :=
  { hs with
    bitIffCounting := by simpa [hphase] using hs.bitIffCounting
    faultIffCode := by simpa [hphase] using hs.faultIffCode
    faultAtReset := by simp
    runningChecked := fun _ => hs.runningChecked (by simp [hphase])
    prevAfterFirst := by simp
    trRiseTiming := by simp
    trFallTiming := fun _ => ⟨(hs.trRiseTiming hphase).2, Nat.lt_succ_self _⟩
    measured := by simp
    waitBounded := by simp
    positionsOrdered := by simp }

theorem measure {s : State} (hs : s.Inv) (hphase : s.phase = .trFall) :
    State.Inv (enterSync { s with h := s.idx - s.sR }) :=
  { hs with
    bitIffCounting := by simpa [hphase] using hs.bitIffCounting
    faultIffCode := by simpa [hphase] using hs.faultIffCode
    faultAtReset := by simp
    runningChecked := fun _ => hs.runningChecked (by simp [hphase])
    trRiseTiming := by simp
    trFallTiming := by simp
    measured := fun _ => Nat.sub_pos_of_lt (hs.trFallTiming hphase).2
    waitBounded := by simp
    positionsOrdered := by simp }

/-! Acquisition. In both phases that acquire a bit, it is bit `k`. -/

theorem isBit_of_k_ne_zero {s : State} (hs : s.Inv) (hk : s.k ≠ 0#5) : s.phase = .bit := hs.bitIffCounting.mpr hk

theorem k_eq_zero {s : State} (hs : s.Inv) (hphase : s.phase ≠ .bit) : s.k = 0#5 := by
  by_contra hk
  exact hphase (hs.isBit_of_k_ne_zero hk)

/-- Both phases that acquire a bit acquire bit `k`. -/
theorem acquired_k {s : State} (hs : s.Inv) {k : BitIndex}
    (h : (s.phase = .sync ∧ k = 0#5) ∨ (s.phase = .bit ∧ k = s.k)) : (s.phase = .sync ∨ s.phase = .bit) ∧ k = s.k := by
  obtain ⟨hphase, rfl⟩ | ⟨hphase, rfl⟩ := h
  · exact ⟨.inl hphase, (hs.k_eq_zero (by simp [hphase])).symm⟩
  · exact ⟨.inr hphase, rfl⟩

theorem sel_eq_none {s : State} (hs : s.Inv) (hk : s.k.toNat < 10) : s.sel = none := by
  cases h : s.sel with
  | none => rfl
  | some e =>
    obtain ⟨-, late, -⟩ := hs.selResolved e h
    omega

/-- The positions of the word after ACQUIRE, in order, none past the sample. -/
theorem acquire_positions {s : State} (hs : s.Inv) :
    (acquire s.k s).wordStart ≤ (acquire s.k s).fieldStart ∧ (acquire s.k s).fieldStart ≤ s.idx := by
  rw [acquire_wordStart, acquire_fieldStart]
  by_cases hk : s.k = 0#5
  · simp [hk, isFieldStart]
  · have positions := hs.positionsOrdered (hs.isBit_of_k_ne_zero hk)
    have bound := hs.waitBounded (hs.isBit_of_k_ne_zero hk)
    rw [if_neg hk]
    split <;> omega

theorem isBit_of_present {s : State} (hs : s.Inv) {e : Entry} (h : s.sel = some e) : s.k ≠ 0#5 ∧ s.phase = .bit := by
  obtain ⟨-, late, -⟩ := hs.selResolved e h
  have hk : s.k ≠ 0#5 := by rintro zero; simp [zero] at late
  exact ⟨hk, hs.isBit_of_k_ne_zero hk⟩

/-! ACQUIRE and the value span (43_value_scaler.md R207). -/

theorem acquire_absent {s : State} (hs : s.Inv) (h : s.sel = none) :
    (acquire s.k s).phStart = none ∧ (acquire s.k s).phStop = none := by
  rw [acquire_phStart_of_absent h, acquire_phStop_of_absent h]
  exact hs.spanNeedsSel h

theorem acquire_startCaptured {s : State} (hs : s.Inv) {e : Entry} (h : s.sel = some e) :
    (acquire s.k s).phStart.isSome = true ↔ e.f ≤ s.k.toNat + 1 := by
  obtain ⟨-, -, legal⟩ := hs.selResolved e h
  have before := hs.startCaptured e h
  rw [acquire_phStart_of_present h legal]
  split
  · exact iff_of_true rfl (by omega)
  · rw [before]
    omega

theorem acquire_stopCaptured {s : State} (hs : s.Inv) {e : Entry} (h : s.sel = some e) :
    (acquire s.k s).phStop.isSome = true ↔ e.stopJ ≤ 18 ∧ e.stopJ + 10 < s.k.toNat + 1 := by
  have before := hs.stopCaptured e h
  rw [acquire_phStop_of_present h]
  split
  · exact iff_of_true rfl (by omega)
  · rw [before]
    omega

/-- The captured positions lie in the word, none past the sample. -/
theorem acquire_span {s : State} (hs : s.Inv) {p : Nat}
    (h : (acquire s.k s).phStart = some p ∨ (acquire s.k s).phStop = some p) :
    (acquire s.k s).wordStart ≤ p ∧ p ≤ s.idx := by
  cases hsel : s.sel with
  | none =>
    obtain ⟨noStart, noStop⟩ := hs.acquire_absent hsel
    simp [noStart, noStop] at h
  | some e =>
    obtain ⟨hk, hphase⟩ := hs.isBit_of_present hsel
    obtain ⟨-, -, legal⟩ := hs.selResolved e hsel
    have positions := hs.positionsOrdered hphase
    have bound := hs.waitBounded hphase
    rw [acquire_phStart_of_present hsel legal, acquire_phStop_of_present hsel] at h
    rw [acquire_wordStart, if_neg hk]
    have captured : p = s.idx ∨ s.phStart = some p ∨ s.phStop = some p :=
      h.elim (fun start => (eq_or_of_ite_eq_some start).imp_right .inl)
        fun stop => (eq_or_of_ite_eq_some stop).imp_right .inr
    obtain rfl | old := captured
    · omega
    · have within := hs.spanWithinWord p old
      omega

/-! A bit before the last. -/

theorem passedChecks {s : State} (hs : s.Inv) (acquires : s.phase = .sync ∨ s.phase = .bit) :
    s.cfg.srValid = true ∧ (s.cfg.tableMode = true → s.cfg.tblPresent = true) :=
  hs.runningChecked (by rcases acquires with h | h <;> simp [h])

/-- What the field operation of bit `k` leaves of the entry and its span (42_field_extractor.md R173,
43_value_scaler.md R207). -/
theorem advances_entry {s t : State} (hs : s.Inv) (acquires : s.phase = .sync ∨ s.phase = .bit)
    (adv : Advances s.k (acquire s.k s) t) {e : Entry} (h : t.sel = some e) :
    s.cfg.decEn = true ∧ 9 ≤ s.k.toNat ∧ e.legal = true ∧
      (t.phStart.isSome = true ↔ e.f ≤ s.k.toNat + 1) ∧
      (t.phStop.isSome = true ↔ e.stopJ ≤ 18 ∧ e.stopJ + 10 < s.k.toNat + 1) := by
  rw [adv.phStart, adv.phStop]
  have hsel := adv.sel
  rw [h, acquire_sel] at hsel
  split at hsel
  · next last =>
    have nine : s.k.toNat = 9 := by rw [last]; rfl
    have absent : s.sel = none := hs.sel_eq_none (by omega)
    obtain ⟨noStart, noStop⟩ := hs.acquire_absent absent
    obtain ⟨on, legal⟩ := resolveWord_legal (s := closeSdi (acquire s.k s))
      (by simpa [closeSdi] using hs.cfgWellFormed) (by simpa [closeSdi] using (hs.passedChecks acquires).2)
      (by simpa [closeSdi] using absent) hsel.symm
    have window := window_of_legal legal
    rw [noStart, noStop]
    refine ⟨by simpa [closeSdi] using on, nine.ge, legal, iff_of_false (by simp) ?_, iff_of_false (by simp) ?_⟩ <;>
      omega
  · obtain ⟨on, late, legal⟩ := hs.selResolved e hsel.symm
    exact ⟨on, by omega, legal, hs.acquire_startCaptured hsel.symm, hs.acquire_stopCaptured hsel.symm⟩

theorem advances_absent {s t : State} (hs : s.Inv) (adv : Advances s.k (acquire s.k s) t) (h : t.sel = none) :
    s.sel = none := by
  by_cases last : s.k = 9#5
  · exact hs.sel_eq_none (by simp [last])
  · simpa [adv.sel, last] using h

/-- The acquisition of a bit before the last keeps the invariant. -/
theorem acquireBit {s : State} (hs : s.Inv) (acquires : s.phase = .sync ∨ s.phase = .bit) (hk : s.k ≠ 31#5) :
    State.Inv (consumeSample (fieldOp s.k (acquire s.k s))) := by
  have adv := fieldOp_advances hk (acquire s.k s)
  have counts := toNat_succ_of_ne_last hk
  have noFault : s.phase ≠ .fault := by rcases acquires with h | h <;> simp [h]
  have code : s.faultCode = 0#2 := by
    by_contra raised
    exact noFault (hs.faultIffCode.mpr raised)
  exact
    { cfgWellFormed := by simpa using hs.cfgWellFormed
      pinsHeld := by simpa using hs.pinsHeld
      weightLatched := by simpa using hs.weightLatched
      bitIffCounting := by
        have positive : s.k + 1#5 ≠ 0#5 := fun zero => by simp [zero] at counts
        simp [adv.phase, adv.counter, positive]
      faultIffCode := by simp [adv.phase, code]
      faultCodeLegal := by simp [code]
      faultAtReset := by simp [adv.phase]
      runningChecked := fun _ => by simpa using hs.passedChecks acquires
      prevAfterFirst := by simp
      trRiseTiming := by simp [adv.phase]
      trFallTiming := by simp [adv.phase]
      measured := fun _ => by simpa using hs.measured acquires
      waitBounded := fun _ => by
        have measured := hs.measured acquires
        simp only [consumeSample_eLast, adv.eLast, consumeSample_idx, consumeSample_h, fieldOp_idx, fieldOp_h,
          acquire_idx, acquire_h]
        omega
      positionsOrdered := fun _ => by simpa [adv.eLast] using hs.acquire_positions
      labelReceived := by
        simpa [adv.labelRaw, adv.counter, counts] using receive_lt (first := 0) _ hs.labelReceived
      sdiReceived := by simpa [adv.sdi, adv.counter, counts] using receive_lt _ hs.sdiReceived
      dataReceived := by simpa [adv.data, adv.counter, counts] using receive_lt _ hs.dataReceived
      ssmReceived := by simpa [adv.ssm, adv.counter, counts] using receive_lt _ hs.ssmReceived
      parCleared := by simpa [adv.par] using hs.parCleared
      selResolved := fun e h => by
        obtain ⟨on, late, legal, -, -⟩ := hs.advances_entry acquires adv h
        simpa [adv.counter, counts, on, legal] using late
      spanNeedsSel := fun h => by
        simpa [adv.phStart, adv.phStop] using hs.acquire_absent (hs.advances_absent adv h)
      startCaptured := fun e h => by
        obtain ⟨-, -, -, start, -⟩ := hs.advances_entry acquires adv h
        simpa [adv.counter, counts] using start
      stopCaptured := fun e h => by
        obtain ⟨-, -, -, -, stop⟩ := hs.advances_entry acquires adv h
        simpa [adv.counter, counts] using stop
      spanWithinWord := fun p h => by
        rw [consumeSample_phStart, consumeSample_phStop, adv.phStart, adv.phStop] at h
        simpa [adv.eLast] using hs.acquire_span h }

/-- ACQ_PARITY ends the word: everything of it is cleared (42_field_extractor.md R178). -/
theorem lastBit {s : State} (hs : s.Inv) (hk : s.k = 31#5) : State.Inv (acqParity (acquire s.k s)) := by
  have hphase : s.phase = .bit := hs.isBit_of_k_ne_zero (by simp [hk])
  have code : s.faultCode = 0#2 := by
    by_contra raised
    simpa [hphase] using hs.faultIffCode.mpr raised
  constructor
  case cfgWellFormed => simpa [acqParity] using hs.cfgWellFormed
  case pinsHeld => simpa [acqParity] using hs.pinsHeld
  case weightLatched => simpa [acqParity] using hs.weightLatched
  case runningChecked => simpa [acqParity] using hs.passedChecks (.inr hphase)
  case prevAfterFirst => simpa [acqParity] using hs.prevAfterFirst
  case measured => simpa [acqParity] using hs.measured (.inr hphase)
  all_goals simp [acqParity, code]

/-- Both phases that acquire a bit acquire bit `k`, and keep the invariant. -/
theorem acquireStep {s : State} (hs : s.Inv) (acquires : s.phase = .sync ∨ s.phase = .bit) :
    State.Inv (consumeSample (fieldOp s.k (acquire s.k s))) := by
  by_cases hk : s.k = 31#5
  · rw [fieldOp_last hk]
    exact (hs.lastBit hk).consume (by simp [acqParity]) (by simp [acqParity])
  · exact hs.acquireBit acquires hk

end State.Inv

theorem sampleStep_inv {s t : State} (hs : s.Inv) (h : SampleStep s t) : t.Inv := by
  cases h with
  | hold _ => exact hs
  | wait n running waits => exact (hs.setRunLen running n).consume running waits
  | edge hphase => exact hs.edge hphase
  | measure hphase => exact (hs.measure hphase).consume (by simp) (by simp)
  | acquire k acquires =>
    obtain ⟨acquiring, rfl⟩ := hs.acquired_k acquires
    exact hs.acquireStep acquiring

/-! ## The invariant at a step -/

theorem sampleStep_of_exec {s t : State} {i : Instr} (hdec : decodeDispatch s.dispatchWord = .ok i)
    (h : exec i s = .next t) : SampleStep s t := by
  rw [decodeDispatch_dispatchWord] at hdec
  obtain rfl := Except.ok.inj hdec
  exact exec_selected h

theorem driveRst_inv {level : Bool} {s t : State} (hs : s.Inv) (h : driveRst level s = .next t) : t.Inv := by
  obtain ⟨-, rfl⟩ | ⟨-, -, started⟩ | ⟨-, -, rfl⟩ := (driveRst_next_iff level s t).mp h
  · exact hs.atPorts (by simp) _ _ _ _
  · obtain ⟨wf, rfl⟩ := (startSession_next_iff _ t).mp started
    exact inv_resetChecks wf
  · exact hs

theorem driveConfig_inv {c : Cfg} {s t : State} (hs : s.Inv) (h : driveConfig c s = .next t) : t.Inv := by
  obtain ⟨asserted, rfl⟩ | ⟨-, -, rfl⟩ := (driveConfig_next_iff c s t).mp h
  · exact hs.atPorts (by simp [asserted]) _ _ _ _
  · exact hs

/-- Every step keeps the invariant. -/
theorem step_keeps_inv {s t : State} (hs : s.Inv) (h : step s = .next t) : t.Inv := by
  obtain ⟨-, rfl⟩ | ⟨level, rest, -, driven⟩ | ⟨c, rest, -, driven⟩ | ⟨x, rest, -, -, rfl⟩ |
    ⟨x, rest, i, u, -, -, hdec, run, rfl⟩ := step_next_cases h
  · exact hs
  · exact driveRst_inv (hs.atPorts hs.pinsHeld s.line [] s.stream rest) driven
  · exact driveConfig_inv (hs.atPorts hs.pinsHeld s.line [] s.stream rest) driven
  · exact hs.atPorts hs.pinsHeld x [] s.stream rest
  · have sampled := sampleStep_inv (hs.atPorts hs.pinsHeld x [] s.stream rest) (sampleStep_of_exec hdec run)
    exact sampled.atPorts sampled.pinsHeld _ _ _ _

end Sys2Proof.Machine
end

section
/-! SUPPORT. Every step keeps the order of the event stream (20_memory.md R71): the events that a bit emits start where
`State.nextStart` says or later, and no kind twice; and the statement O57. -/

namespace Sys2Proof.Machine

/-! ## The order of a grown stream -/

/-- From `s` to `t` no start already reached is reached again, and the events at the port, of kinds that differ, start
between. -/
structure EmitsInOrder (s t : State) : Prop where
  advance : ∀ kind, s.nextStart kind ≤ t.nextStart kind
  distinct : (t.out.map Event.kind).Nodup
  fresh : ∀ ev ∈ t.out, s.nextStart ev.kind ≤ ev.start ∧ ev.start < t.nextStart ev.kind

theorem emitsInOrder_of_silent {s t : State} (hout : t.out = [])
    (advance : ∀ kind, s.nextStart kind ≤ t.nextStart kind) : EmitsInOrder s t where
  advance := advance
  distinct := by simp [hout]
  fresh := by simp [hout]

namespace State.StreamInv

/-- The delivery of a step's events (20_memory.md R65, R67) keeps the order. -/
theorem deliver {s t : State} (hs : s.StreamInv) (inv : t.Inv) (stream : t.stream = s.stream)
    (emits : EmitsInOrder s t) : State.StreamInv { t with stream := t.stream ++ t.out } where
  inv := inv.atPorts inv.pinsHeld _ _ _ _
  ordered := by
    rw [stream]
    refine List.pairwise_append.mpr ⟨hs.ordered, ?_, fun old hold new hnew same => ?_⟩
    · have differ := List.pairwise_map.mp emits.distinct
      exact differ.imp fun ne same => absurd same ne
    · exact (same ▸ hs.behind old hold).trans_le (emits.fresh new hnew).1
  behind := fun ev hev => by
    rw [stream] at hev
    obtain old | new := List.mem_append.mp hev
    · exact (hs.behind ev old).trans_le (emits.advance ev.kind)
    · exact (emits.fresh ev new).2

/-- The order does not depend on the ports. -/
theorem atPorts {s : State} (hs : s.StreamInv) {r : Bool} {c : Cfg} (pins : r = false → c = s.cfg) (x : Sample)
    (out : List Event) (host : List HostInput) :
    State.StreamInv { s with rst := r, cfgIn := c, line := x, out := out, host := host } :=
  { hs with inv := hs.inv.atPorts pins x out s.stream host }

end State.StreamInv

theorem streamInv_of_empty {s : State} (hs : s.Inv) (h : s.stream = []) : s.StreamInv where
  inv := hs
  ordered := by simp [orderedPerKind, h]
  behind := by simp [h]

/-! ## Where the next event of a kind starts -/

/-- An event of this kind awaits the rest of its field, whose first bit lies before bit `k`: LABEL, SDI, DATA or SSM
(30_encoding.md R85, R110). -/
def FieldPending (kind k : Nat) : Prop :=
  (kind = 1 ∧ k ≤ 7) ∨ (kind = 2 ∧ k = 9) ∨ (kind = 3 ∧ 11 ≤ k ∧ k ≤ 28) ∨ (kind = 4 ∧ k = 30)

theorem nextStart_of_ne_bit {s : State} (h : s.phase ≠ .bit) (kind : Nat) : s.nextStart kind = s.idx := by
  simp [State.nextStart, h]

theorem nextStart_of_fieldPending {s : State} (h : s.phase = .bit) {kind : Nat}
    (pending : FieldPending kind s.k.toNat) : s.nextStart kind = s.fieldStart := by
  obtain ⟨rfl, hk⟩ | ⟨rfl, hk⟩ | ⟨rfl, hk⟩ | ⟨rfl, hk⟩ := pending <;> simp [State.nextStart, h, hk]

theorem nextStart_value {s : State} (h : s.phase = .bit) (early : s.k.toNat ≤ 28) :
    s.nextStart 7 = s.phStart.getD s.idx := by simp [State.nextStart, h, early]

theorem nextStart_verdict {s : State} (h : s.phase = .bit) : s.nextStart 8 = s.wordStart := by
  simp [State.nextStart, h]

theorem nextStart_of_ended {s : State} {kind : Nat} (field : ¬ FieldPending kind s.k.toNat)
    (value : ¬ (kind = 7 ∧ s.k.toNat ≤ 28)) (verdict : s.phase = .bit → kind ≠ 8) : s.nextStart kind = s.idx := by
  by_cases h : s.phase = .bit
  · simp only [FieldPending, not_or] at field
    obtain ⟨label, sdi, data, ssm⟩ := field
    rw [State.nextStart, if_neg (not_not.mpr h), if_neg label, if_neg sdi, if_neg data, if_neg ssm, if_neg value,
      if_neg (verdict h)]
  · exact nextStart_of_ne_bit h kind

/-- In `BIT` the next event of a kind starts with its field, its value or its word, or at the next sample. -/
theorem nextStart_cases {s : State} (h : s.phase = .bit) (kind : Nat) :
    (FieldPending kind s.k.toNat ∧ s.nextStart kind = s.fieldStart) ∨
    (kind = 7 ∧ s.k.toNat ≤ 28 ∧ s.nextStart kind = s.phStart.getD s.idx) ∨
    (kind = 8 ∧ s.nextStart kind = s.wordStart) ∨ s.nextStart kind = s.idx := by
  by_cases field : FieldPending kind s.k.toNat
  · exact .inl ⟨field, nextStart_of_fieldPending h field⟩
  by_cases value : kind = 7 ∧ s.k.toNat ≤ 28
  · obtain ⟨rfl, early⟩ := value
    exact .inr (.inl ⟨rfl, early, nextStart_value h early⟩)
  by_cases verdict : kind = 8
  · subst verdict
    exact .inr (.inr (.inl ⟨rfl, nextStart_verdict h⟩))
  · exact .inr (.inr (.inr (nextStart_of_ended field value fun _ => verdict)))

theorem nextStart_le_idx {s : State} (hs : s.Inv) (kind : Nat) : s.nextStart kind ≤ s.idx := by
  by_cases hphase : s.phase = .bit
  · have positions := hs.positionsOrdered hphase
    have bound := hs.waitBounded hphase
    have start : s.phStart.getD s.idx ≤ s.idx := by
      cases h : s.phStart with
      | none => exact le_rfl
      | some p =>
        have within := hs.spanWithinWord p (.inl h)
        rw [Option.getD_some]
        omega
    obtain ⟨-, next⟩ | ⟨-, -, next⟩ | ⟨-, next⟩ | next := nextStart_cases hphase kind <;> omega
  · exact (nextStart_of_ne_bit hphase kind).le

theorem nextStart_le_consume (s : State) (kind : Nat) : s.nextStart kind ≤ (consumeSample s).nextStart kind := by
  have start : s.phStart.getD s.idx ≤ s.phStart.getD (s.idx + 1) := by cases s.phStart <;> simp
  unfold State.nextStart
  rw [consumeSample_phase, consumeSample_k, consumeSample_fieldStart, consumeSample_phStart, consumeSample_idx,
    consumeSample_wordStart]
  split_ifs <;> omega

theorem nextStart_le_of_ne_bit {s t : State} (hs : s.Inv) (hphase : t.phase ≠ .bit) (hidx : s.idx ≤ t.idx)
    (kind : Nat) : s.nextStart kind ≤ t.nextStart kind := by
  rw [nextStart_of_ne_bit hphase]
  exact (nextStart_le_idx hs kind).trans hidx

/-! ## The events of a bit -/

/-- Which bit emits an event of each kind, and where it starts, in the state that ACQUIRE leaves
(42_field_extractor.md R165 to R178, 43_value_scaler.md R208, 44_parity.md R230). -/
def EventOfBit (k : BitIndex) (s : State) : Event → Prop
  | .bitValue a _ _ | .bitOrdinal a _ _ => a = s.idx
  | .label a _ _ _ => k = 7#5 ∧ a = s.fieldStart
  | .sdi a _ _ => k = 9#5 ∧ a = s.fieldStart
  | .data a _ _ => k = 28#5 ∧ a = s.fieldStart
  | .value a _ _ _ _ _ => k = 28#5 ∧ s.sel ≠ none ∧ a = s.phStart.getD (Config.absentSpanStart s.idx)
  | .ssm a _ _ => k = 30#5 ∧ a = s.fieldStart
  | .parity a _ _ => k = 31#5 ∧ a = s.fieldStart
  | .verdict a _ _ => k = 31#5 ∧ a = s.wordStart

/-- SCALE emits one `Value` or nothing. -/
theorem scaleWord_out_cases (s : State) :
    (scaleWord s).out = s.out ∨ ∃ e r, s.sel = some e ∧ (scaleWord s).out = s.out ++ [valueEvent r e s] := by
  cases h : s.sel with
  | none => exact .inl (by rw [scaleWord_of_absent h])
  | some e =>
    rw [scaleWord_of_present h]
    simp only [scaleWith_of_present h]
    split_ifs
    · exact .inr ⟨e, _, rfl, rfl⟩
    · exact .inr ⟨e, _, rfl, rfl⟩
    · exact .inr ⟨e, _, rfl, rfl⟩
    · exact .inl rfl

/-- A bit emits no kind twice, and each event as `EventOfBit` says. -/
theorem fieldOp_acquire_out {s : State} (hout : s.out = []) (k : BitIndex) :
    ((fieldOp k (acquire k s)).out.map Event.kind).Nodup ∧
      ∀ ev ∈ (fieldOp k (acquire k s)).out, EventOfBit k (acquire k s) ev := by
  obtain ⟨-, h⟩ | ⟨rfl, h⟩ | ⟨rfl, h⟩ | ⟨rfl, h⟩ | ⟨-, -, h⟩ | ⟨rfl, h⟩ | ⟨rfl, h⟩ | ⟨rfl, h⟩ | ⟨rfl, h⟩ :=
    fieldOp_cases k (acquire k s)
  · rw [h]; simp [acqLabel, hout, Event.kind, EventOfBit]
  · rw [h]; simp [acqLabelLast, hout, Event.kind, EventOfBit]
  · rw [h]; simp [acqSdi, hout, Event.kind, EventOfBit]
  · rw [h]; simp [acqSdiLast, hout, Event.kind, EventOfBit]
  · rw [h]; simp [acqData, hout, Event.kind, EventOfBit]
  · rw [h]
    obtain silent | ⟨e, r, hsel, valued⟩ := scaleWord_out_cases (closeData (acquire 28#5 s))
    · rw [acqDataLast_eq, nextBit_out, silent]
      simp [closeData, hout, Event.kind, EventOfBit]
    · rw [acqDataLast_eq, nextBit_out, valued]
      have present : s.sel = some e := by simpa [closeData] using hsel
      simp [valueEvent, closeData, hout, present, Event.kind, EventOfBit]
  · rw [h]; simp [acqSsm, hout, Event.kind, EventOfBit]
  · rw [h]; simp [acqSsmLast, hout, Event.kind, EventOfBit]
  · rw [h]; simp [acqParity, parityVerdict, hout, Event.kind, EventOfBit]

/-! ## Acquisition keeps the order

What ACQUIRE leaves as the start of the field, the value and the word has not been reached. -/

theorem nextStart_le_fieldStart {s : State} (hs : s.Inv) {kind : Nat}
    (h : isFieldStart s.k = true ∨ FieldPending kind s.k.toNat) :
    s.nextStart kind ≤ (acquire s.k s).fieldStart := by
  rw [acquire_fieldStart]
  split
  · exact nextStart_le_idx hs kind
  · next inside =>
    have hk : s.k ≠ 0#5 := by rintro zero; simp [zero, isFieldStart] at inside
    exact (nextStart_of_fieldPending (hs.isBit_of_k_ne_zero hk) (h.resolve_left inside)).le

theorem nextStart_le_phStart {s : State} (hs : s.Inv) (early : s.k.toNat ≤ 28) {p : Nat}
    (h : (acquire s.k s).phStart = some p) : s.nextStart 7 ≤ p := by
  cases hsel : s.sel with
  | none => simp [hs.acquire_absent hsel] at h
  | some e =>
    obtain ⟨-, hphase⟩ := hs.isBit_of_present hsel
    obtain ⟨-, -, legal⟩ := hs.selResolved e hsel
    rw [acquire_phStart_of_present hsel legal] at h
    obtain rfl | old := eq_or_of_ite_eq_some h
    · exact nextStart_le_idx hs 7
    · rw [nextStart_value hphase early, old, Option.getD_some]

theorem nextStart_le_wordStart {s : State} (hs : s.Inv) : s.nextStart 8 ≤ (acquire s.k s).wordStart := by
  rw [acquire_wordStart]
  split
  · exact nextStart_le_idx hs 8
  · next hk => exact (nextStart_verdict (hs.isBit_of_k_ne_zero hk)).le

/-- At its bit an event of a kind is no longer awaited. -/
theorem eventOfBit_ends {k : BitIndex} {s : State} {ev : Event} (h : EventOfBit k s ev) :
    ¬ FieldPending ev.kind (k.toNat + 1) ∧ ¬ (ev.kind = 7 ∧ k.toNat + 1 ≤ 28) ∧ (ev.kind = 8 → k = 31#5) := by
  unfold FieldPending
  cases ev with
  | bitValue | bitOrdinal => simp [Event.kind]
  | label | sdi | data | ssm | parity | value | verdict =>
    obtain ⟨rfl, -⟩ := h
    simp [Event.kind]

/-- The value span of a resolved entry has a start at bit 28 (43_value_scaler.md R208). -/
theorem acquire_phStart_isSome {s : State} (hs : s.Inv) (hk : s.k = 28#5) (present : s.sel ≠ none) :
    ∃ p, (acquire s.k s).phStart = some p := by
  obtain ⟨e, he⟩ := Option.ne_none_iff_exists'.mp present
  obtain ⟨-, -, legal⟩ := hs.selResolved e he
  have window := window_of_legal legal
  have late : e.f ≤ s.k.toNat + 1 := by
    rw [hk, BitVec.toNat_ofNat]
    omega
  exact Option.isSome_iff_exists.mp ((hs.acquire_startCaptured he).mpr late)

/-- An event of bit `k` starts where none of its kind has, and not past the sample. -/
theorem eventOfBit_start {s : State} (hs : s.Inv) {ev : Event} (h : EventOfBit s.k (acquire s.k s) ev) :
    s.nextStart ev.kind ≤ ev.start ∧ ev.start ≤ s.idx := by
  obtain ⟨wordFirst, fieldFirst⟩ := hs.acquire_positions
  cases ev with
  | bitValue a _ _ | bitOrdinal a _ _ =>
    obtain rfl : a = s.idx := by simpa [EventOfBit] using h
    exact ⟨nextStart_le_idx hs _, le_rfl⟩
  | label a _ _ _ | sdi a _ _ | data a _ _ | ssm a _ _ =>
    obtain ⟨hk, rfl⟩ := h
    exact ⟨nextStart_le_fieldStart hs (.inr (by simp [FieldPending, Event.kind, hk])), fieldFirst⟩
  | parity a _ _ =>
    obtain ⟨hk, rfl⟩ := h
    exact ⟨nextStart_le_fieldStart hs (.inl (by simp [isFieldStart, hk])), fieldFirst⟩
  | verdict a _ _ =>
    obtain ⟨-, rfl⟩ := h
    exact ⟨nextStart_le_wordStart hs, wordFirst.trans fieldFirst⟩
  | value a _ _ _ _ _ =>
    obtain ⟨hk, present, rfl⟩ := h
    rw [acquire_sel] at present
    obtain ⟨p, hp⟩ := acquire_phStart_isSome hs hk present
    simp only [Event.start, hp, Option.getD_some]
    exact ⟨nextStart_le_phStart hs (by simp [hk]) hp, (hs.acquire_span (.inl hp)).2⟩

/-- A field that the next bit awaits starts with this bit or was awaited already. -/
theorem isFieldStart_or_fieldPending {kind : Nat} {k : BitIndex} (h : FieldPending kind (k.toNat + 1)) :
    isFieldStart k = true ∨ FieldPending kind k.toNat := by
  unfold FieldPending at *
  simp only [isFieldStart, Bool.or_eq_true, beq_iff_eq]
  omega

/-- Before the last bit, what is pending stays pending, or its start is set at this sample. -/
theorem nextStart_le_acquireBit {s : State} (hs : s.Inv) (hk : s.k ≠ 31#5) (kind : Nat) :
    s.nextStart kind ≤ (consumeSample (fieldOp s.k (acquire s.k s))).nextStart kind := by
  have adv := fieldOp_advances hk (acquire s.k s)
  have early := nextStart_le_idx hs kind
  have counter : (consumeSample (fieldOp s.k (acquire s.k s))).k.toNat = s.k.toNat + 1 := by
    rw [consumeSample_k, adv.counter, toNat_succ_of_ne_last hk]
  obtain ⟨pending, h⟩ | ⟨rfl, late, h⟩ | ⟨rfl, h⟩ | h :=
    nextStart_cases (s := consumeSample (fieldOp s.k (acquire s.k s))) adv.phase kind
  all_goals rw [h]
  · rw [counter] at pending
    simpa using nextStart_le_fieldStart hs (isFieldStart_or_fieldPending pending)
  · rw [consumeSample_phStart, adv.phStart]
    cases hp : (acquire s.k s).phStart with
    | none => exact early.trans (by simp)
    | some p => exact nextStart_le_phStart hs (by omega) hp
  · simpa using nextStart_le_wordStart hs
  · exact early.trans (by simp)

/-- Every event of a bit lies behind its kind's next start. -/
theorem nextStart_acquireStep_of_emitted {s : State} {ev : Event} (h : EventOfBit s.k (acquire s.k s) ev) :
    (consumeSample (fieldOp s.k (acquire s.k s))).nextStart ev.kind = s.idx + 1 := by
  obtain ⟨field, value, verdict⟩ := eventOfBit_ends h
  have idx : (consumeSample (fieldOp s.k (acquire s.k s))).idx = s.idx + 1 := by simp
  rw [← idx]
  by_cases hk : s.k = 31#5
  · exact nextStart_of_ne_bit (by simp [fieldOp_last hk, acqParity]) _
  · have adv := fieldOp_advances hk (acquire s.k s)
    have counter := toNat_succ_of_ne_last hk
    rw [← counter, ← adv.counter] at field value
    exact nextStart_of_ended field value fun _ last => hk (verdict last)

theorem acquireStep_emitsInOrder {s : State} (hs : s.Inv) (hout : s.out = []) :
    EmitsInOrder s (consumeSample (fieldOp s.k (acquire s.k s))) := by
  obtain ⟨distinct, events⟩ := fieldOp_acquire_out hout s.k
  refine ⟨fun kind => ?_, distinct, fun ev hev => ?_⟩
  · by_cases hk : s.k = 31#5
    · exact nextStart_le_of_ne_bit hs (by simp [fieldOp_last hk, acqParity]) (by simp) kind
    · exact nextStart_le_acquireBit hs hk kind
  · obtain ⟨fresh, reached⟩ := eventOfBit_start hs (events ev hev)
    rw [nextStart_acquireStep_of_emitted (events ev hev)]
    exact ⟨fresh, Nat.lt_succ_of_le reached⟩

/-! ## A step keeps the order -/

theorem sampleStep_stream {s t : State} (h : SampleStep s t) : t.stream = s.stream := by
  cases h <;> simp

theorem sampleStep_emitsInOrder {s t : State} (hs : s.Inv) (hout : s.out = []) (h : SampleStep s t) :
    EmitsInOrder s t := by
  cases h with
  | hold _ => exact emitsInOrder_of_silent hout fun _ => le_rfl
  | wait n _ _ => exact emitsInOrder_of_silent hout (nextStart_le_consume { s with runLen := n })
  | edge _ => exact emitsInOrder_of_silent hout (nextStart_le_of_ne_bit hs (by simp) (by simp))
  | measure _ => exact emitsInOrder_of_silent hout (nextStart_le_of_ne_bit hs (by simp) (by simp))
  | acquire k acquires =>
    obtain ⟨-, rfl⟩ := hs.acquired_k acquires
    exact acquireStep_emitsInOrder hs hout

theorem driveRst_streamInv {level : Bool} {s t : State} (hs : s.StreamInv) (h : driveRst level s = .next t) :
    t.StreamInv := by
  have inv := driveRst_inv hs.inv h
  obtain ⟨-, rfl⟩ | ⟨-, -, started⟩ | ⟨-, -, rfl⟩ := (driveRst_next_iff level s t).mp h
  · exact hs.atPorts (by simp) _ _ _
  · obtain ⟨-, rfl⟩ := (startSession_next_iff _ t).mp started
    exact streamInv_of_empty inv (by simp)
  · exact hs

theorem driveConfig_streamInv {c : Cfg} {s t : State} (hs : s.StreamInv) (h : driveConfig c s = .next t) :
    t.StreamInv := by
  obtain ⟨asserted, rfl⟩ | ⟨-, -, rfl⟩ := (driveConfig_next_iff c s t).mp h
  · exact hs.atPorts (by simp [asserted]) _ _ _
  · exact hs

/-- Every step keeps the invariant and the order. -/
theorem step_keeps_streamInv {s t : State} (hs : s.StreamInv) (h : step s = .next t) : t.StreamInv := by
  obtain ⟨-, rfl⟩ | ⟨level, rest, -, driven⟩ | ⟨c, rest, -, driven⟩ | ⟨x, rest, -, -, rfl⟩ |
    ⟨x, rest, i, u, -, -, hdec, run, rfl⟩ := step_next_cases h
  · exact hs
  · exact driveRst_streamInv (hs.atPorts hs.inv.pinsHeld s.line [] rest) driven
  · exact driveConfig_streamInv (hs.atPorts hs.inv.pinsHeld s.line [] rest) driven
  · exact hs.atPorts hs.inv.pinsHeld x [] rest
  · have presented := hs.atPorts hs.inv.pinsHeld x [] rest
    have sampled := sampleStep_of_exec hdec run
    exact presented.deliver (sampleStep_inv presented.inv sampled) (sampleStep_stream sampled)
      (sampleStep_emitsInOrder presented.inv rfl sampled)

/-- Settles O57: a step emits its events in order behind a stream that is in order. -/
theorem stepKeepsTheStreamOrdered : Obligations.StepKeepsTheStreamOrdered := fun _ _ hs h =>
  have kept := step_keeps_streamInv hs h
  ⟨kept, kept.ordered⟩

end Sys2Proof.Machine
end

section
/-! SUPPORT. The selectors of 30_encoding.md section 6 and the procedures their units run, the display form of a label,
and the statements O3, O4, O5, O6 and O56. -/

namespace Sys2Proof.Machine

/-- Settles O56: the step lemma of the invariant, by the host's next interaction. -/
theorem stepKeepsTheInvariant : Obligations.StepKeepsTheInvariant := fun _ _ hs h => step_keeps_inv hs h

/-! ## The dispatch word (30_encoding.md R100, R101) -/

/-- Settles O3: one fact for each field of the word, and the row they select. -/
theorem dispatchSelectsByPhaseAndConditions : Obligations.DispatchSelectsByPhaseAndConditions := fun s =>
  ⟨dispatchWord_ph s, dispatchWord_k s, dispatchWord_rise s, dispatchWord_fall s, dispatchWord_low s,
    dispatchWord_gapOk s, dispatchWord_tmo s, dispatchWord_pad s, decodeDispatch_dispatchWord s⟩

/-! ## The field operation of a bit and the units it invokes (30_encoding.md R103) -/

theorem decodeAcq_of_le_six {k : BitIndex} (h : k.toNat ≤ 6) : decodeAcq k = .acqLabel k := if_pos h

theorem decodeAcq_of_dataBit {k : BitIndex} (h : 10 ≤ k.toNat ∧ k.toNat ≤ 27) : decodeAcq k = .acqData k := by
  obtain ⟨first, last⟩ := h
  rw [decodeAcq, if_neg (by omega), if_neg (by omega), if_neg (by omega), if_neg (by omega), if_pos last]

/-- With DEC_EN the resolution of a word is the unit that MODE chooses (45_resolver.md R240). -/
theorem exec_resolver {s : State} (on : s.cfg.decEn = true) :
    exec (if s.cfg.mode then .resolveTable else .resolveStatic) s = .next (resolveWord s) := by
  rw [resolveWord, if_pos on]
  split_ifs <;> rfl

theorem acqSdiLast_sel (s : State) :
    (acqSdiLast s).sel = (resolveWord { s with sdi := s.sdi ||| (s.bitNow.setWidth 2 <<< 1) }).sel := by
  rw [acqSdiLast_eq, resolveWord_eq, resolveWord_eq]
  rfl

/-- Beside an entry of a defined sign mode, SCALE is the unit that the mode chooses (30_encoding.md R94). -/
theorem exec_scaler {s : State} {e : Entry} (present : s.sel = some e) (defined : e.signMode ≠ 3#2) :
    exec (if e.signMode = 0#2 then .scaleUnsigned else if e.signMode = 1#2 then .scaleSigned else .scaleTwos) s =
      .next (scaleWord s) := by
  rw [scaleWord_of_present present]
  split_ifs
  · rfl
  · rfl
  · rfl
  · have reserved : e.signMode = 3#2 := by bv_omega
    exact absurd reserved defined

/-- Settles O4: the operations of a bit run `fieldOp`, which is the meaning of the decoded field operation; the units
are the procedures that the last bits of their fields run. -/
theorem acquiredBitRunsItsFieldOperation : Obligations.AcquiredBitRunsItsFieldOperation := by
  refine ⟨fun k => ?_, fun k s => ?_, fun s on => ?_, fun s e present defined => ?_, fun s => ?_⟩
  · refine ⟨decodeAcq_of_le_six, ?_, ?_, ?_, decodeAcq_of_dataBit, ?_, ?_, ?_, ?_⟩
    all_goals intro h; simp [decodeAcq, h]
  · rw [exec_decodeAcq]
    exact ⟨rfl, rfl, fun first => by rw [first]; rfl⟩
  · have resolved := exec_resolver (s := { s with sdi := s.sdi ||| (s.bitNow.setWidth 2 <<< 1) }) on
    exact ⟨_, _, rfl, resolved, acqSdiLast_sel s⟩
  · exact ⟨_, _, rfl, exec_scaler present defined, rfl⟩
  · exact ⟨_, _, rfl, rfl, rfl⟩

/-! ## An INVALID sample (30_encoding.md R81) -/

/-- Settles O5: both lines are high, so neither can fall, and either rises from a 0. -/
theorem invalidSamplePassesThrough : Obligations.InvalidSamplePassesThrough := by
  intro s neg pos
  refine ⟨?_, ?_, fun p hp => ?_, ?_⟩
  · simp [State.low, neg]
  · cases hprev : s.prev <;> simp [State.fall, hprev, neg, pos]
  · simp [State.rise, hp, neg, pos]
  · simp [State.bitNow, pos]

/-! ## The display form of a label (30_encoding.md R90, R91) -/

theorem disp_eq (raw : BitVec 8) :
    disp raw = raw.toNat % 8 + 10 * (raw.toNat / 8 % 8) + 100 * (raw.toNat / 64) := by
  have lt := raw.isLt
  simp only [disp, BitVec.extractLsb'_toNat, Nat.shiftRight_eq_div_pow]
  omega

theorem isDisplay_disp (raw : BitVec 8) : isDisplay (disp raw) = true := by
  have lt := raw.isLt
  rw [isDisplay_iff]
  exact ⟨raw.toNat / 64, raw.toNat / 8 % 8, raw.toNat % 8, by omega, by omega, by omega, by rw [disp_eq]; omega⟩

theorem undisp_disp (raw : BitVec 8) : undisp (disp raw) = raw.toNat := by
  rw [disp_eq, undisp]
  omega

theorem undisp_lt {d : Nat} (h : isDisplay d = true) : undisp d < 256 := by
  obtain ⟨d2, d1, d0, h2, h1, h0, rfl⟩ := (isDisplay_iff d).mp h
  rw [undisp]
  omega

theorem disp_undisp {d : Nat} (h : isDisplay d = true) : disp (BitVec.ofNat 8 (undisp d)) = d := by
  rw [disp_eq, BitVec.toNat_ofNat, Nat.mod_eq_of_lt (undisp_lt h)]
  obtain ⟨d2, d1, d0, h2, h1, h0, rfl⟩ := (isDisplay_iff d).mp h
  rw [undisp]
  omega

/-- Settles O6: three octal digits written as decimal ones, in both directions. -/
theorem labelDisplayIsBijective : Obligations.LabelDisplayIsBijective :=
  ⟨fun raw => ⟨disp_eq raw, isDisplay_disp raw, undisp_disp raw⟩, isDisplay_iff,
    fun _ h => ⟨undisp_lt h, disp_undisp h⟩⟩

end Sys2Proof.Machine
end

section
/-! SUPPORT. Bit-timing recovery: the edge and level conditions, how its operations end and when they are selected, what
a step at a sample writes, and the statements O10 to O15 (40_bit_timing.md). -/

namespace Sys2Proof.Machine

/-! ## Conditions (40_bit_timing.md R120, 42_field_extractor.md R160) -/

theorem rise_iff {s : State} {p : Sample} (hprev : s.prev = some p) :
    s.rise = true ↔ (p.neg = false ∧ s.line.neg = true) ∨ (p.pos = false ∧ s.line.pos = true) := by
  simp [State.rise, hprev]

theorem fall_iff {s : State} {p : Sample} (hprev : s.prev = some p) :
    s.fall = true ↔ (p.neg = true ∧ s.line.neg = false) ∨ (p.pos = true ∧ s.line.pos = false) := by
  simp [State.fall, hprev]

theorem low_iff (s : State) : s.low = true ↔ s.line.neg = false ∧ s.line.pos = false := by
  simp [State.low]

/-- The bit-wait bound lies three half bits past the last acquired bit. -/
theorem tmo_iff (s : State) : s.tmo = true ↔ s.idx = s.eLast + 3 * s.h := by
  rw [State.tmo, State.bw, decide_eq_true_iff]
  omega

/-- Settles O11: without a previous sample both edges are false, and with one each condition is its formula. -/
theorem edgeAndLevelConditions : Obligations.EdgeAndLevelConditions := fun s =>
  ⟨fun first => by simp [State.rise, State.fall, first], fun _ hprev => ⟨rise_iff hprev, fall_iff hprev⟩, low_iff s⟩

/-! ## The operations of bit-timing recovery (40_bit_timing.md R124 to R127) -/

/-- Settles O12: each of the three operations is the end of a step alone. -/
theorem waitingOperationsOnlyConsume : Obligations.WaitingOperationsOnlyConsume := by
  refine fun s => ⟨fun fits => ?_, fun hphase hrise => ?_, fun hphase hfall => ?_, fun hphase hrise early => ?_⟩
  · have ends : endStep s = .next (consumeSample s) := endStep_of_fits fits
    exact ⟨ends, ends, ends⟩
  · simp [decodeDispatch_dispatchWord, State.selected, hphase, hrise]
  · simp [decodeDispatch_dispatchWord, State.selected, hphase, hfall]
  · have waits : ¬ s.tmo = true := mt (tmo_iff s).mp early
    simp [decodeDispatch_dispatchWord, State.selected, hphase, hrise, waits]

/-- Settles O13: TR_EDGE is the end of a step on its update, and the row of TR_RISE with RISE. -/
theorem trEdgeRecordsTheRisingEdge : Obligations.TrEdgeRecordsTheRisingEdge := by
  refine fun s => ⟨fun fits => ?_, fun hphase hrise => ?_⟩
  · exact endStep_of_fits (s := { s with sR := s.idx, phase := .trFall }) fits
  · simp [decodeDispatch_dispatchWord, State.selected, hphase, hrise]

/-- The run length that ENTER_SYNC starts from is 1 exactly when both lines are 0 (41_word_sync.md R140). -/
theorem enterSync_eq (s : State) :
    enterSync s = { s with phase := .sync, runLen := if s.line.neg = false ∧ s.line.pos = false then 1 else 0 } := by
  rw [enterSync, if_congr (low_iff s) rfl rfl]

/-- Settles O14: TR_MEASURE and ACQ_PARITY both end with ENTER_SYNC, at the sample on the lines. -/
theorem trMeasureMeasuresAndArms : Obligations.TrMeasureMeasuresAndArms := by
  refine fun s => ⟨fun fits => ?_, fun behind => ?_, fun hphase hfall => ?_, fun u parity => ?_⟩
  · have measured : exec .trMeasure s = endStep (enterSync { s with h := s.idx - s.sR }) := rfl
    rw [measured, enterSync_eq]
    exact endStep_of_fits fits
  · omega
  · simp [decodeDispatch_dispatchWord, State.selected, hphase, hfall]
  · obtain rfl : acqParity s = u := Host.Outcome.next.inj parity
    rw [acqParity, enterSync_eq]
    exact ⟨rfl, rfl⟩

/-! ## What a step at a sample writes (40_bit_timing.md R121, R128) -/

/-- With `rst` asserted a sample shows on the lines and is not consumed (70_reset_and_hazards.md R290). -/
theorem step_sample_of_rst {s : State} {x : Sample} {rest : List HostInput} (hrst : s.rst = true)
    (hhost : s.host = .sample x :: rest) : step s = .next { s with host := rest, out := [], line := x } := by
  have present : fetch s = presentSample x { s with host := rest, out := [] } := by rw [fetch, hhost]
  rw [step, present, presentSample, if_pos hrst]

/-- Outside `rst` a step at a sample runs the selected operation and delivers its events. -/
theorem step_sample_next {s t : State} {x : Sample} {rest : List HostInput} (hrst : s.rst = false)
    (hhost : s.host = .sample x :: rest) (h : step s = .next t) :
    ∃ u, SampleStep { s with host := rest, out := [], line := x } u ∧ t = { u with stream := u.stream ++ u.out } := by
  rw [step_sample hrst hhost (decodeDispatch_dispatchWord _)] at h
  obtain ⟨u, run, rfl⟩ := (deliver_next_iff _ t).mp h
  exact ⟨u, exec_selected run, rfl⟩

/-- Outside FAULT the sample on the lines is consumed. -/
theorem sampleStep_consumes {s t : State} (h : SampleStep s t) (running : s.phase ≠ .fault) :
    t.prev = some s.line ∧ t.idx = s.idx + 1 ∧ t.line = s.line ∧ t.host = s.host := by
  cases h with
  | hold faulted => exact absurd faulted running
  | wait | edge | measure => exact ⟨rfl, rfl, rfl, rfl⟩
  | acquire k _ => simp

/-- Settles O10: every outcome of the selected operation outside FAULT ends with R121. -/
theorem stepConsumesItsSample : Obligations.StepConsumesItsSample := by
  intro s t x rest hrst hhost running h
  obtain ⟨u, sampled, rfl⟩ := step_sample_next hrst hhost h
  have consumed := sampleStep_consumes sampled running
  exact consumed

theorem effect_h {i : Instr} (other : i ≠ .trMeasure) (s : State) : (effect i s).h = s.h := by
  cases i with
  | trMeasure => exact absurd rfl other
  | trWait | trHold | bitWait | faultHold | trEdge | syncLow | syncBreak | syncShort => rfl
  | scaleUnsigned | scaleSigned | scaleTwos | resolveStatic | resolveTable | parityCheck =>
    simp [effect, resolveStatic, resolveTable]
  | bitEdge | bitTimeout | syncFire | acqLabel | acqLabelLast | acqSdi | acqSdiLast | acqData | acqDataLast | acqSsm |
    acqSsmLast | acqParity =>
    simp [effect, acqLabel, acqLabelLast, acqSdi, acqSdiLast, acqData, acqDataLast, acqSsm, acqSsmLast, acqParity]

/-- The last bit of a word re-arms the gap detector, every other one waits for the next bit. -/
theorem fieldOp_phase (k : BitIndex) (s : State) :
    (fieldOp k s).phase = .sync ∨ (fieldOp k s).phase = .bit := by
  by_cases last : k = 31#5
  · rw [fieldOp_last last]
    exact .inl rfl
  · exact .inr (fieldOp_advances last s).phase

/-- Past bit-timing recovery a sample neither measures again nor leads back (40_bit_timing.md R128). -/
theorem sampleStep_of_measured {s t : State} (h : SampleStep s t) (measured : s.phase = .sync ∨ s.phase = .bit) :
    t.h = s.h ∧ (t.phase = .sync ∨ t.phase = .bit) := by
  cases h with
  | hold | wait => exact ⟨rfl, measured⟩
  | edge hphase | measure hphase => simp [hphase] at measured
  | acquire k _ => exact ⟨by simp, fieldOp_phase k (acquire k s)⟩

/-- Settles O15: only the update of TR_MEASURE writes `h`, and no outcome from SYNC or BIT is one of bit-timing
recovery; with `rst` asserted the sample writes no register. -/
theorem halfBitIsMeasuredOnce : Obligations.HalfBitIsMeasuredOnce := by
  refine ⟨fun i s t other h => ?_, fun s t x rest hhost measured h => ?_⟩
  · have kept := effect_h other s
    obtain rfl | rfl := exec_next_cases h <;> exact kept
  · cases hrst : s.rst with
    | true =>
      rw [step_sample_of_rst hrst hhost] at h
      obtain rfl := Host.Outcome.next.inj h
      exact ⟨rfl, measured⟩
    | false =>
      obtain ⟨u, sampled, rfl⟩ := step_sample_next hrst hhost h
      have kept := sampleStep_of_measured sampled measured
      exact kept

end Sys2Proof.Machine
end

section
/-! SUPPORT. The word synchronizer: the gap condition, the rows of SYNC, the update of SYNC_FIRE, and the statements O16,
O17 and O18 (41_word_sync.md). -/

namespace Sys2Proof.Machine

/-! ## The selection in SYNC (41_word_sync.md R141 to R145) -/

/-- Three bit widths are six half bits. -/
theorem gapOk_iff (s : State) : s.gapOk = true ↔ 6 * s.h ≤ s.runLen := by
  rw [State.gapOk, State.bw, decide_eq_true_iff]
  omega

theorem decodeDispatch_of_sync_of_rise {s : State} (hphase : s.phase = .sync) (hrise : s.rise = true) :
    decodeDispatch s.dispatchWord = .ok (if s.gapOk then .syncFire else .syncShort) := by
  simp [decodeDispatch_dispatchWord, State.selected, hphase, hrise]

theorem decodeDispatch_of_sync_of_not_rise {s : State} (hphase : s.phase = .sync) (hrise : s.rise = false) :
    decodeDispatch s.dispatchWord = .ok (if s.low then .syncLow else .syncBreak) := by
  simp [decodeDispatch_dispatchWord, State.selected, hphase, hrise]

/-- Settles O16: each of the three operations is the end of a step on its write to `runLen`; without RISE the row is
chosen by LOW, with RISE by GAPOK. -/
theorem gapDetectorCountsAndBreaks : Obligations.GapDetectorCountsAndBreaks := by
  refine fun s => ⟨fun fits => ?_, fun fits => ?_, fun hphase hrise hlow => ?_, fun hphase hrise hlow => ?_,
    fun hphase hrise hgap => ?_⟩
  · exact endStep_of_fits (s := { s with runLen := s.runLen + 1 }) fits
  · have broken := endStep_of_fits (s := { s with runLen := 0 }) fits
    exact ⟨broken, broken⟩
  · simp [decodeDispatch_of_sync_of_not_rise hphase hrise, hlow]
  · simp [decodeDispatch_of_sync_of_not_rise hphase hrise, hlow]
  · simp [decodeDispatch_of_sync_of_rise hphase hrise, hgap]

/-- Settles O18: in SYNC a rising edge is decided by GAPOK alone, and one below `3 × bw` is below `6h`. -/
theorem gapFiresFromThreeBitWidths : Obligations.GapFiresFromThreeBitWidths := by
  refine fun s hphase hrise => ⟨?_, fun oneShort => ?_⟩
  · rw [decodeDispatch_of_sync_of_rise hphase hrise, ← gapOk_iff]
    cases s.gapOk <;> simp
  · have noGap : ¬ s.gapOk = true := by
      rw [gapOk_iff]
      omega
    rw [decodeDispatch_of_sync_of_rise hphase hrise, if_neg noGap]

/-! ## The start of a word (41_word_sync.md R145) -/

/-- Bit 0 opens the word and its first field, and lies before the data bits (42_field_extractor.md R165 to R167). -/
theorem acquire_first (s : State) :
    acquire 0#5 s =
      { s with
        out := s.out ++ [.bitValue s.idx s.spanEnd s.bitNow, .bitOrdinal s.idx s.spanEnd 1]
        wordStart := s.idx
        fieldStart := s.idx } := by
  have events : acquire 0#5 s =
      { s with
        out := (s.out ++ [.bitValue s.idx s.spanEnd s.bitNow]) ++ [.bitOrdinal s.idx s.spanEnd 1]
        wordStart := s.idx
        fieldStart := s.idx } := rfl
  rw [events, List.append_assoc, List.singleton_append]

/-- The first label bit is received at place 0 (42_field_extractor.md R170). -/
theorem acqLabel_first (s : State) :
    acqLabel 0#5 s =
      { s with labelRaw := s.labelRaw ||| s.bitNow.setWidth 8, k := 1#5, eLast := s.idx, phase := .bit } := by
  simp [acqLabel, nextBit]

/-- Settles O17: SYNC_FIRE is the end of a step on the acquisition of bit 0 and its field operation. -/
theorem syncFireStartsAWord : Obligations.SyncFireStartsAWord := by
  refine fun s => ⟨fun fits => ?_, fun hphase hrise hgap => ?_⟩
  · have acquired : exec .syncFire s = endStep (acqLabel 0#5 (acquire 0#5 s)) := rfl
    rw [acquired, acquire_first, acqLabel_first]
    exact endStep_of_fits fits
  · simp [decodeDispatch_of_sync_of_rise hphase hrise, hgap]

end Sys2Proof.Machine
end

section
/-! SUPPORT. The field operations on their own and the two steps that acquire a bit: the update of each, the events they
emit, the positions they write, and the statements O19 to O21 and O23 to O30 (42_field_extractor.md). -/

namespace Sys2Proof.Machine

/-! ## The field operations (42_field_extractor.md R170 to R178) -/

/-- Settles O23: the bit received at place `k`, then NEXT_BIT. -/
theorem acqLabelSetsItsBit : Obligations.AcqLabelSetsItsBit := fun _ _ => ⟨rfl, decodeAcq_of_le_six⟩

/-- Settles O24: the Label event shows the label with its last bit. -/
theorem acqLabelLastEmitsTheLabel : Obligations.AcqLabelLastEmitsTheLabel := ⟨rfl, fun _ => rfl⟩

/-- Settles O25: each opens its field at place 0, then NEXT_BIT. -/
theorem acqSdiAndSsmSetTheirFirstBit : Obligations.AcqSdiAndSsmSetTheirFirstBit :=
  ⟨rfl, rfl, fun _ => ⟨rfl, rfl⟩⟩

/-- Settles O26: the resolution is one write to `sel`, after the Sdi event and before NEXT_BIT. -/
theorem acqSdiLastResolvesTheWord : Obligations.AcqSdiLastResolvesTheWord := by
  refine ⟨rfl, fun s => ?_⟩
  have resolved : exec .acqSdiLast s = .next (nextBit 9#5 (resolveWord (closeSdi s))) := rfl
  rw [resolved, resolveWord_eq]
  rfl

/-- Settles O27: the bit received at place `k - 10`, then NEXT_BIT. -/
theorem acqDataSetsItsBit : Obligations.AcqDataSetsItsBit := fun _ _ => ⟨rfl, decodeAcq_of_dataBit⟩

/-- ACQ_DATA_LAST beside an entry whose sign mode chooses one integer stage. -/
theorem exec_acqDataLast_of_scaled {s : State} {e : Entry} (h : s.sel = some e)
    {stage : Entry → BitVec 19 → Scaled} (unit : scaleWord (closeData s) = scaleWith stage (closeData s)) :
    exec .acqDataLast s =
      .next (nextBit 28#5 (emit (valueEvent (stage e (closeData s).data) e (closeData s)) (closeData s))) := by
  have scaled : exec .acqDataLast s = .next (nextBit 28#5 (scaleWord (closeData s))) := rfl
  rw [scaled, unit, scaleWith_of_present (s := closeData s) h]

/-- Settles O28: no Value without an entry; beside one the unit of its sign mode emits it after the Data event. -/
theorem acqDataLastEmitsAndScales : Obligations.AcqDataLastEmitsAndScales := by
  refine ⟨rfl, fun s => ⟨fun absent => ?_, fun e present mode => ?_, fun e present mode => ?_,
    fun e present mode => ?_⟩⟩
  · have scaled : exec .acqDataLast s = .next (nextBit 28#5 (scaleWord (closeData s))) := rfl
    rw [scaled, scaleWord_of_absent (s := closeData s) absent]
    rfl
  all_goals
    rw [exec_acqDataLast_of_scaled present (by rw [scaleWord_of_present (s := closeData s) present, mode]; rfl)]
    simp [nextBit, emit, closeData, valueEvent, State.spanEnd, State.bitNow]

/-- Settles O29: the Ssm event shows both bits. -/
theorem acqSsmLastEmitsTheSsm : Obligations.AcqSsmLastEmitsTheSsm := ⟨rfl, fun _ => rfl⟩

theorem acqParity_out (s : State) :
    (acqParity s).out = s.out ++ [.parity s.fieldStart s.spanEnd s.bitNow,
      .verdict s.wordStart s.spanEnd (State.parityOk { s with par := s.bitNow })] := by
  simp [acqParity, parityVerdict, State.spanEnd, State.parityOk]

/-- Settles O30: the verdict is over the accumulators as they stand before the clearing. -/
theorem acqParityEndsTheWord : Obligations.AcqParityEndsTheWord := by
  refine ⟨rfl, fun s => ?_⟩
  have ended : exec .acqParity s = .next (acqParity s) := rfl
  rw [ended, acqParity, enterSync_eq]
  simp [clearWord, parityVerdict, emit, State.spanEnd, State.bitNow, State.parityOk]

/-! ## The two acquiring steps of BIT (42_field_extractor.md R162, R163) -/

/-- Settles O19: in BIT a rising edge is decided before the bound, and both rows end the step on one acquisition. -/
theorem bitEdgeAndTimeoutAcquire : Obligations.BitEdgeAndTimeoutAcquire := by
  refine fun k s => ⟨fun fits => ?_, fun hphase hrise => ?_, fun hphase hrise bound => ?_⟩
  · have consumed : consumeSample (fieldOp k (acquire k s)) =
        { fieldOp k (acquire k s) with prev := some s.line, idx := s.idx + 1 } := by simp [consumeSample]
    rw [← consumed] at fits ⊢
    exact ⟨endStep_of_fits fits, endStep_of_fits fits⟩
  · simp [decodeDispatch_dispatchWord, State.selected, hphase, hrise]
  · simp [decodeDispatch_dispatchWord, State.selected, hphase, hrise, (tmo_iff s).mpr bound]

/-- The three steps that acquire a bit have one next state. -/
theorem eq_consumeSample_of_acquires {k : BitIndex} {s t : State}
    (h : exec (.bitEdge k) s = .next t ∨ exec (.bitTimeout k) s = .next t ∨ (k = 0#5 ∧ exec .syncFire s = .next t)) :
    t = consumeSample (fieldOp k (acquire k s)) := by
  have ended : endStep (fieldOp k (acquire k s)) = .next t := by
    obtain edge | timeout | ⟨rfl, fire⟩ := h
    · exact edge
    · exact timeout
    · exact fire
  exact ((endStep_next_iff _ _).mp ended).2

/-! ## The events of a bit (42_field_extractor.md R166, R170 to R178) -/

/-- What the field operation of bit `k` emits beside a `Value`: the event that ends a field, and the verdict. -/
def fieldEvents (k : BitIndex) (s : State) : List Event :=
  if k.toNat = 7 then
    [.label s.fieldStart s.spanEnd (receive 0 k s.bitNow s.labelRaw) (disp (receive 0 k s.bitNow s.labelRaw))]
  else if k.toNat = 9 then [.sdi s.fieldStart s.spanEnd (receive 8 k s.bitNow s.sdi)]
  else if k.toNat = 28 then [.data s.fieldStart s.spanEnd (receive 10 k s.bitNow s.data)]
  else if k.toNat = 30 then [.ssm s.fieldStart s.spanEnd (receive 29 k s.bitNow s.ssm)]
  else if k.toNat = 31 then
    [.parity s.fieldStart s.spanEnd s.bitNow,
      .verdict s.wordStart s.spanEnd (State.parityOk { s with par := s.bitNow })]
  else []

theorem fieldEvents_eq_nil {k : BitIndex}
    (h : k.toNat ≠ 7 ∧ k.toNat ≠ 9 ∧ k.toNat ≠ 28 ∧ k.toNat ≠ 30 ∧ k.toNat ≠ 31) (s : State) :
    fieldEvents k s = [] := by
  obtain ⟨label, sdi, data, ssm, last⟩ := h
  rw [fieldEvents, if_neg label, if_neg sdi, if_neg data, if_neg ssm, if_neg last]

/-- A field operation emits the events of its bit; that of bit 28 may add one `Value`. -/
theorem fieldOp_out (k : BitIndex) (s : State) :
    ∃ values, (fieldOp k s).out = s.out ++ fieldEvents k s ++ values ∧
      (values = [] ∨ k = 28#5 ∧ ∃ ev, ev.kind = 7 ∧ values = [ev]) := by
  obtain ⟨le, h⟩ | ⟨rfl, h⟩ | ⟨rfl, h⟩ | ⟨rfl, h⟩ | ⟨ge, le, h⟩ | ⟨rfl, h⟩ | ⟨rfl, h⟩ | ⟨rfl, h⟩ | ⟨rfl, h⟩ :=
    fieldOp_cases k s
  case inr.inr.inr.inr.inr.inl =>
    have closed : (closeData s).out = s.out ++ fieldEvents 28#5 s := by simp [closeData, fieldEvents, receive]
    rw [h, acqDataLast_eq, nextBit_out, ← closed]
    obtain silent | ⟨e, r, -, valued⟩ := scaleWord_out_cases (closeData s)
    · exact ⟨[], by rw [silent, List.append_nil], .inl rfl⟩
    · exact ⟨[_], valued, .inr ⟨rfl, _, rfl, rfl⟩⟩
  all_goals refine ⟨[], ?_, .inl rfl⟩; rw [h, List.append_nil]
  · rw [fieldEvents_eq_nil (by omega)]; simp [acqLabel]
  · simp [acqLabelLast, fieldEvents, receive, State.spanEnd]
  · simp [acqSdi, fieldEvents]
  · simp [acqSdiLast, fieldEvents, receive, State.spanEnd]
  · rw [fieldEvents_eq_nil (by omega)]; simp [acqData]
  · simp [acqSsm, fieldEvents]
  · simp [acqSsmLast, fieldEvents, receive, State.spanEnd]
  · simp [acqParity_out, fieldEvents]

/-- Settles O20: ACQUIRE emits the first two events, the field operation of `k` the rest. -/
theorem acquiredBitEmitsInOrder : Obligations.AcquiredBitEmitsInOrder := by
  intro k s t h
  obtain ⟨values, out, few⟩ := fieldOp_out k (acquire k s)
  rw [acquire_out] at out
  have noValue (other : k ≠ 28#5) : values = [] := few.resolve_right fun data => other data.1
  refine ⟨fieldEvents k (acquire k s) ++ values, ?events, fun hk => ?label, fun hk => ?sdi, fun hk => ?data,
    fun hk => ?ssm, fun hk => ?last, fun hk => ?inside⟩
  case events =>
    rw [eq_consumeSample_of_acquires h, consumeSample_out, out, List.append_assoc]
    rfl
  case label =>
    obtain rfl : k = 7#5 := BitVec.eq_of_toNat_eq hk
    simp [noValue, fieldEvents, acquire_fieldStart, isFieldStart, State.spanEnd]
  case sdi =>
    obtain rfl : k = 9#5 := BitVec.eq_of_toNat_eq hk
    simp [noValue, fieldEvents, acquire_fieldStart, isFieldStart, State.spanEnd]
  case data =>
    obtain rfl : k = 28#5 := BitVec.eq_of_toNat_eq hk
    have data : fieldEvents 28#5 (acquire 28#5 s) =
        [.data s.fieldStart (s.idx + s.h) (receive 10 28#5 s.bitNow s.data)] := by
      simp [fieldEvents, acquire_fieldStart, isFieldStart, State.spanEnd, State.bitNow]
    rw [data]
    obtain rfl | ⟨-, ev, value, rfl⟩ := few
    · exact ⟨_, .inl rfl⟩
    · exact ⟨_, .inr ⟨ev, value, rfl⟩⟩
  case ssm =>
    obtain rfl : k = 30#5 := BitVec.eq_of_toNat_eq hk
    simp [noValue, fieldEvents, acquire_fieldStart, isFieldStart, State.spanEnd]
  case last =>
    obtain rfl : k = 31#5 := BitVec.eq_of_toNat_eq hk
    simp [noValue, fieldEvents, acquire_fieldStart, acquire_wordStart, isFieldStart, State.spanEnd, State.bitNow]
  case inside =>
    rw [fieldEvents_eq_nil hk, List.nil_append]
    exact noValue (by rintro rfl; simp at hk)

/-! ## The positions of a bit (42_field_extractor.md R165, R168, 43_value_scaler.md R207) -/

theorem acquire_phStart_of_dataBit {k : BitIndex} {s : State} {e : Entry} (h : s.sel = some e)
    (data : isDataBit k = true) :
    (acquire k s).phStart = if k.toNat - 10 = e.f - 11 then some s.idx else s.phStart := by
  simp [acquire_eq, h, data]

theorem acquire_phStop_of_dataBit {k : BitIndex} {s : State} {e : Entry} (h : s.sel = some e)
    (data : isDataBit k = true) :
    (acquire k s).phStop = if k.toNat - 10 = e.stopJ then some s.idx else s.phStop := by
  simp [acquire_eq, h, data]

/-- Outside the data field nothing is captured. -/
theorem acquire_span_of_not_dataBit {k : BitIndex} {s : State} (other : isDataBit k = false) :
    (acquire k s).phStart = s.phStart ∧ (acquire k s).phStop = s.phStop := by
  cases h : s.sel <;> simp [acquire_eq, h, other]

/-- Settles O21: ACQUIRE writes the starts and the captures, the field operation of all but bit 31 runs NEXT_BIT. -/
theorem acquisitionWritesPositions : Obligations.AcquisitionWritesPositions := by
  intro k s t h
  obtain rfl := eq_consumeSample_of_acquires h
  have first : k = 0#5 ↔ k.toNat = 0 := BitVec.toNat_inj.symm
  have advances (inside : k.toNat ≠ 31) : Advances k (acquire k s) (fieldOp k (acquire k s)) :=
    fieldOp_advances (by rintro rfl; exact inside rfl) _
  refine ⟨?_, ?_, fun inside => ?_, fun e present ge le => ?_, fun inside quiet => ?_⟩
  · simp [acquire_wordStart, first]
  · simp [acquire_fieldStart, isFieldStart, or_assoc]
  · have adv := advances inside
    exact ⟨adv.counter, by simpa using adv.eLast, adv.phase⟩
  · have adv := advances (by omega)
    have data : isDataBit k = true := decide_eq_true ⟨ge, le⟩
    exact ⟨adv.phStart.trans (acquire_phStart_of_dataBit present data),
      adv.phStop.trans (acquire_phStop_of_dataBit present data)⟩
  · have adv := advances inside
    rw [consumeSample_phStart, consumeSample_phStop, adv.phStart, adv.phStop]
    obtain absent | outside := quiet
    · exact ⟨acquire_phStart_of_absent absent k, acquire_phStop_of_absent absent k⟩
    · exact acquire_span_of_not_dataBit (by rw [isDataBit, decide_eq_false_iff_not]; omega)

end Sys2Proof.Machine
end

section
/-! SUPPORT. Runs over the samples the host supplies: composition, the step at a sample when no width is given, the
samples between two bits, and the statement O58 (42_field_extractor.md R160 to R163). -/

namespace Sys2Proof.Machine

/-! ## Runs of steps -/

section
variable {M : Host.Core}

theorem run_succ_next_iff (n : Nat) (s t : M.State) :
    M.run (n + 1) s = .next t ↔ ∃ u, M.step s = .next u ∧ M.run n u = .next t := by
  rw [Host.Core.run]
  cases M.step s <;> simp

theorem run_succ {n : Nat} {s u t : M.State} (first : M.step s = .next u) (next : M.run n u = .next t) :
    M.run (n + 1) s = .next t :=
  (run_succ_next_iff n s t).mpr ⟨u, first, next⟩

theorem run_add {m n : Nat} {s u t : M.State} (first : M.run m s = .next u) (next : M.run n u = .next t) :
    M.run (m + n) s = .next t := by
  induction m generalizing s with
  | zero =>
    obtain rfl : s = u := Host.Outcome.next.inj first
    rwa [Nat.zero_add]
  | succ m ih =>
    obtain ⟨v, hstep, hrun⟩ := (run_succ_next_iff m s u).mp first
    rw [Nat.add_right_comm]
    exact run_succ hstep (ih hrun)

end

theorem run_keeps_inv {n : Nat} {s t : State} (hs : s.Inv) (h : Host.Core.run core n s = .next t) : t.Inv := by
  induction n generalizing s with
  | zero =>
    obtain rfl : s = t := Host.Outcome.next.inj h
    exact hs
  | succ n ih =>
    obtain ⟨u, hstep, hrun⟩ := (run_succ_next_iff (M := core) n s t).mp h
    exact ih (step_keeps_inv hs hstep) hrun

/-! ## A step at a sample when no width is given (00_scope.md R2) -/

/-- `s` with sample `x` on the lines and the event port empty, the rest of the host's interactions still to come. -/
def State.presented (s : State) (x : Sample) (rest : List HostInput) : State :=
  { s with host := rest, out := [], line := x }

/-- `s` with the events at its port in the stream (20_memory.md R65, R67). -/
def State.delivered (s : State) : State := { s with stream := s.stream ++ s.out }

/-- `s` is outside reset and holds no physical width. -/
structure State.Unbounded (s : State) : Prop where
  rst : s.rst = false
  idxWidth : s.idxWidth = none
  cntWidth : s.cntWidth = none

/-- Without widths a step at a sample is the update of the selected operation, R121 and the delivery. -/
theorem step_of_unbounded {s : State} {x : Sample} {rest : List HostInput} (hs : s.Unbounded)
    (hhost : s.host = .sample x :: rest) (running : s.phase ≠ .fault) :
    step s = .next (consumeSample (effect (s.presented x rest).selected (s.presented x rest))).delivered := by
  have selected : step s = deliver (exec (s.presented x rest).selected (s.presented x rest)) :=
    step_sample hs.rst hhost (decodeDispatch_dispatchWord (s.presented x rest))
  have consumes := (effect_selected (s.presented x rest) running).1
  have setting := effect_sameSetting (s.presented x rest).selected (s.presented x rest)
  rw [selected, exec_eq_effect, if_pos consumes,
    endStep_of_unbounded (setting.idxWidth.trans hs.idxWidth) (setting.cntWidth.trans hs.cntWidth)]
  rfl

/-- The rows that acquire bit `k`: in BIT at a rising edge or at the bound, in SYNC at a rising edge after a gap. -/
theorem effect_selected_of_acquires {s : State}
    (h : (s.phase = .bit ∧ (s.rise = true ∨ s.tmo = true)) ∨
      (s.phase = .sync ∧ s.k = 0#5 ∧ s.rise = true ∧ s.gapOk = true)) :
    effect s.selected s = fieldOp s.k (acquire s.k s) := by
  obtain ⟨hphase, ends⟩ | ⟨hphase, hk, hrise, hgap⟩ := h
  · cases hrise : s.rise with
    | true => simp [State.selected, hphase, hrise, effect]
    | false => simp [State.selected, hphase, hrise, ends.resolve_left (by simp [hrise]), effect]
  · simp only [State.selected, hphase, hrise, hgap, if_true, hk]
    rfl

theorem step_of_acquires {s : State} {x : Sample} {rest : List HostInput} (hs : s.Unbounded)
    (hhost : s.host = .sample x :: rest)
    (h : (s.phase = .bit ∧ ((s.presented x rest).rise = true ∨ (s.presented x rest).tmo = true)) ∨
      (s.phase = .sync ∧ s.k = 0#5 ∧ (s.presented x rest).rise = true ∧ (s.presented x rest).gapOk = true)) :
    step s = .next (consumeSample (fieldOp s.k (acquire s.k (s.presented x rest)))).delivered := by
  have running : s.phase ≠ .fault := by
    obtain ⟨hphase, -⟩ | ⟨hphase, -⟩ := h <;> simp [hphase]
  have acquires := effect_selected_of_acquires (s := s.presented x rest) h
  rw [step_of_unbounded hs hhost running, acquires]
  rfl

/-- Without a rising edge, and before the bound, the rows of SYNC and BIT write `runLen` at most. -/
theorem effect_selected_of_quiet {s : State} (hphase : s.phase = .sync ∨ s.phase = .bit) (level : s.rise = false)
    (early : s.phase = .bit → s.tmo = false) : ∃ r, effect s.selected s = { s with runLen := r } := by
  obtain hphase | hphase := hphase
  · cases hlow : s.low with
    | true => exact ⟨s.runLen + 1, by simp [State.selected, hphase, level, hlow, effect]⟩
    | false => exact ⟨0, by simp [State.selected, hphase, level, hlow, effect]⟩
  · have waits : s.selected = .bitWait := by simp [State.selected, hphase, level, early hphase]
    exact ⟨s.runLen, by rw [waits]; rfl⟩

/-- A sample without a rising edge, before the bound, is only consumed and counted. -/
theorem step_of_quiet {s : State} {x : Sample} {rest : List HostInput} (hs : s.Unbounded)
    (hhost : s.host = .sample x :: rest) (hphase : s.phase = .sync ∨ s.phase = .bit)
    (level : (s.presented x rest).rise = false) (early : s.phase = .bit → s.idx ≠ s.eLast + 3 * s.h) :
    ∃ r, step s = .next
      { s with host := rest, out := [], line := x, prev := some x, idx := s.idx + 1, runLen := r } := by
  have waits : s.phase = .bit → (s.presented x rest).tmo = false := fun h =>
    Bool.eq_false_iff.mpr (mt (tmo_iff _).mp (early h))
  obtain ⟨r, quiet⟩ := effect_selected_of_quiet (s := s.presented x rest) hphase level waits
  refine ⟨r, ?_⟩
  rw [step_of_unbounded hs hhost (by obtain h | h := hphase <;> simp [h]), quiet, State.delivered]
  simp [State.presented, consumeSample]

/-! ## The wait for a bit (42_field_extractor.md R160) -/

/-- Bit `k` was acquired in the step that led to `t`. -/
structure BitAcquired (k : BitIndex) (t : State) : Prop where
  counter : t.k = k + 1#5
  last : k = 31#5 → t.phase = .sync
  inside : k ≠ 31#5 → t.phase = .bit ∧ t.eLast + 1 = t.idx

theorem bitAcquired (k : BitIndex) (s : State) :
    BitAcquired k (consumeSample (fieldOp k (acquire k s))).delivered := by
  by_cases last : k = 31#5
  · rw [fieldOp_last last]
    exact ⟨by simp [State.delivered, acqParity, last], fun _ => rfl, absurd last⟩
  · have adv := fieldOp_advances last (acquire k s)
    exact ⟨adv.counter, fun h => absurd h last, fun _ => ⟨adv.phase, by simp [State.delivered, adv.eLast]⟩⟩

/-- A rising edge and the bound acquire the bit. -/
theorem step_acquires_bit {s : State} {x : Sample} {rest : List HostInput} (hs : s.Unbounded) (hphase : s.phase = .bit)
    (hhost : s.host = .sample x :: rest)
    (ends : (s.presented x rest).rise = true ∨ (s.presented x rest).tmo = true) :
    ∃ t, step s = .next t ∧ t.idx = s.idx + 1 ∧ BitAcquired s.k t :=
  ⟨_, step_of_acquires hs hhost (.inl ⟨hphase, ends⟩), by simp [State.delivered, State.presented],
    bitAcquired s.k (s.presented x rest)⟩

/-- With `m` samples before the bound, a bit is acquired within `m + 1`: at a rising edge or at the bound. -/
theorem run_acquires_bit (m : Nat) {s : State} {xs : List Sample} {rest : List HostInput} (hs : s.Unbounded)
    (hphase : s.phase = .bit) (bound : s.idx + m = s.eLast + 3 * s.h) (enough : m < xs.length)
    (hhost : s.host = supply xs ++ rest) :
    ∃ n t, 1 ≤ n ∧ n ≤ m + 1 ∧ Host.Core.run core n s = .next t ∧ t.idx = s.idx + n ∧ BitAcquired s.k t := by
  induction m generalizing s xs with
  | zero =>
    obtain ⟨x, ys, rfl⟩ := List.exists_cons_of_length_pos enough
    obtain ⟨t, hstep, hidx, acquired⟩ := step_acquires_bit hs hphase hhost (.inr ((tmo_iff _).mpr bound))
    exact ⟨1, t, le_rfl, le_rfl, run_succ hstep rfl, hidx, acquired⟩
  | succ m ih =>
    obtain ⟨x, ys, rfl⟩ := List.exists_cons_of_length_pos (Nat.zero_lt_of_lt enough)
    cases level : (s.presented x (supply ys ++ rest)).rise with
    | true =>
      obtain ⟨t, hstep, hidx, acquired⟩ := step_acquires_bit hs hphase hhost (.inl level)
      exact ⟨1, t, le_rfl, by omega, run_succ hstep rfl, hidx, acquired⟩
    | false =>
      obtain ⟨r, hstep⟩ := step_of_quiet hs hhost (.inr hphase) level fun _ => by omega
      obtain ⟨n, t, ge, le, hrun, hidx, acquired⟩ := ih
        (s := { s with
          host := supply ys ++ rest, out := [], line := x, prev := some x, idx := s.idx + 1, runLen := r })
        { hs with } hphase (by simp only; omega) (Nat.lt_of_succ_lt_succ enough) rfl
      exact ⟨n + 1, t, by omega, by omega, run_succ hstep hrun, by simp only at hidx; omega, acquired⟩

/-- Settles O58: an invariant state lies before the bound of its wait, and at most `3h` samples away from it. -/
theorem bitWaitIsBounded : Obligations.BitWaitIsBounded := by
  intro s xs rest inv hphase hrst hidx hcnt length hhost
  obtain ⟨begun, bound⟩ := inv.waitBounded hphase
  obtain ⟨n, t, ge, le, hrun, hidx', acquired⟩ := run_acquires_bit (s.eLast + 3 * s.h - s.idx) ⟨hrst, hidx, hcnt⟩ hphase
    (by omega) (by omega) hhost
  exact ⟨n, t, ge, by omega, hrun, hidx', acquired.counter, acquired.last, acquired.inside⟩

end Sys2Proof.Machine
end

section
/-! SUPPORT. The reception of an ideal word: the bits received so far, the events of a bit, the samples between two
rising edges, and the statement O59 (42_field_extractor.md R180, R182). -/

namespace Sys2Proof.Machine

/-! ## The bits received so far (30_encoding.md R87) -/

/-- A field register whose first bit is bit `first` of `w`, when the bits of `w` before bit `k` have been received. -/
def Received (w : BitVec 32) (first k : Nat) {n : Nat} (v : BitVec n) : Prop :=
  ∀ j < n, v.getLsbD j = (decide (first + j < k) && w.getLsbD (first + j))

theorem received_of_eq_zero {w : BitVec 32} {first n : Nat} {v : BitVec n} (h : v.toNat < 2 ^ (0 - first)) :
    Received w first 0 v := by
  obtain rfl : v = 0#n := BitVec.eq_of_toNat_eq (by simpa using h)
  simp [Received]

/-- The next bit goes to its place in the field that it belongs to. -/
theorem Received.receive {w : BitVec 32} {first n : Nat} {k : BitIndex} {v : BitVec n}
    (h : Received w first k.toNat v) :
    Received w first (k.toNat + 1) (receive first k (BitVec.ofBool (w.getLsbD k.toNat)) v) := by
  intro j hj
  have old := h j hj
  unfold Machine.receive
  by_cases here : first + j = k.toNat
  · obtain rfl : j = k.toNat - first := by omega
    have place : first + (k.toNat - first) = k.toNat := by omega
    rw [place] at old ⊢
    rw [if_pos (by omega), BitVec.getLsbD_or, old, BitVec.getLsbD_shiftLeft]
    simp [hj, Nat.zero_lt_of_lt hj]
  · have same : decide (first + j < k.toNat + 1) = decide (first + j < k.toNat) := by
      rw [decide_eq_decide]; omega
    rw [same, ← old]
    split
    · have elsewhere : j < k.toNat - first ∨ 1 ≤ j - (k.toNat - first) := by omega
      rw [BitVec.getLsbD_or, BitVec.getLsbD_shiftLeft]
      obtain below | above := elsewhere
      · simp [below]
      · rw [BitVec.getLsbD_setWidth, BitVec.getLsbD_of_ge _ _ above]
        simp
    · rfl

/-- A field all of whose bits have been received. -/
theorem Received.eq_extractLsb' {w : BitVec 32} {first k n : Nat} {v : BitVec n} (h : Received w first k v)
    (complete : first + n ≤ k) : v = w.extractLsb' first n := by
  refine BitVec.eq_of_getLsbD_eq fun j hj => ?_
  have received : first + j < k := by omega
  rw [h j hj, BitVec.getLsbD_extractLsb', decide_eq_true received, decide_eq_true hj]

/-! ## The parity of a word (44_parity.md R230, R231) -/

theorem popcount_extractLsb' {m : Nat} (w : BitVec m) (first n : Nat) :
    popcount (w.extractLsb' first n) = (List.range n).countP fun j => w.getLsbD (first + j) := by
  refine List.countP_congr fun j hj => ?_
  simp [List.mem_range.mp hj]

theorem countP_range_add (p : Nat → Bool) (m n : Nat) :
    (List.range (m + n)).countP p = (List.range m).countP p + (List.range n).countP fun j => p (m + j) := by
  rw [List.range_add, List.countP_append, List.countP_map]
  rfl

theorem extractLsb'_last (w : BitVec 32) : w.extractLsb' 31 1 = BitVec.ofBool (w.getLsbD 31) := by
  refine BitVec.eq_of_getLsbD_eq fun j hj => ?_
  obtain rfl : j = 0 := by omega
  simp

/-- The fields of a word and its last bit hold all its 1 bits. -/
theorem popcount_fields (w : BitVec 32) :
    popcount (w.extractLsb' 0 8) + popcount (w.extractLsb' 8 2) + popcount (w.extractLsb' 10 19) +
      popcount (w.extractLsb' 29 2) + (BitVec.ofBool (w.getLsbD 31)).toNat = popcount w := by
  have split : popcount w = (List.range (8 + 2 + 19 + 2 + 1)).countP fun j => w.getLsbD j := rfl
  rw [split]
  simp only [countP_range_add, popcount_extractLsb']
  cases h : w.getLsbD 31 <;> simpa using h

/-! ## The word in reception -/

/-- The first bit of the field of bit `k` (30_encoding.md R85). -/
def fieldFirst (k : Nat) : Nat :=
  if k < 8 then 0 else if k < 10 then 8 else if k < 29 then 10 else if k < 31 then 29 else 31

theorem isFieldStart_iff (k : BitIndex) : isFieldStart k = true ↔ fieldFirst k.toNat = k.toNat := by
  have lt := k.isLt
  simp only [isFieldStart, fieldFirst, Bool.or_eq_true, beq_iff_eq]
  split_ifs <;> omega

/-- Within a field the next bit has the same first bit. -/
theorem fieldFirst_succ_of_ne {k : Nat} (h : fieldFirst (k + 1) ≠ k + 1) : fieldFirst (k + 1) = fieldFirst k := by
  unfold fieldFirst at *
  split_ifs at * <;> omega

/-- The registers of word `w`, whose bits start every `2h` samples from `e0` on, before bit `k` of it. -/
structure Receiving (w : BitVec 32) (e0 : Nat) (s : State) : Prop where
  wordStart : s.k ≠ 0#5 → s.wordStart = e0
  fieldStart : isFieldStart s.k = false → s.fieldStart = e0 + 2 * s.h * fieldFirst s.k.toNat
  labelRaw : Received w 0 s.k.toNat s.labelRaw
  sdi : Received w 8 s.k.toNat s.sdi
  data : Received w 10 s.k.toNat s.data
  ssm : Received w 29 s.k.toNat s.ssm

/-- Between words nothing has been received. -/
theorem receiving_of_k_eq_zero {s : State} (hs : s.Inv) (hk : s.k = 0#5) (w : BitVec 32) (e0 : Nat) :
    Receiving w e0 s := by
  have zero : s.k.toNat = 0 := by rw [hk]; rfl
  have label := hs.labelReceived
  have sdi := hs.sdiReceived
  have data := hs.dataReceived
  have ssm := hs.ssmReceived
  rw [zero] at label sdi data ssm
  constructor
  case wordStart => exact absurd hk
  case fieldStart => simp [hk, isFieldStart]
  case labelRaw => rw [zero]; exact received_of_eq_zero label
  case sdi => rw [zero]; exact received_of_eq_zero sdi
  case data => rw [zero]; exact received_of_eq_zero data
  case ssm => rw [zero]; exact received_of_eq_zero ssm

namespace Receiving

variable {w : BitVec 32} {e0 : Nat} {s : State}

theorem acquire_wordStart (hr : Receiving w e0 s) (position : s.idx = e0 + 2 * s.h * s.k.toNat) :
    (acquire s.k s).wordStart = e0 := by
  rw [Machine.acquire_wordStart]
  split
  · next first => simpa [first] using position
  · next later => exact hr.wordStart later

theorem acquire_fieldStart (hr : Receiving w e0 s) (position : s.idx = e0 + 2 * s.h * s.k.toNat) :
    (acquire s.k s).fieldStart = e0 + 2 * s.h * fieldFirst s.k.toNat := by
  rw [Machine.acquire_fieldStart]
  split
  · next first => rw [(isFieldStart_iff _).mp first, position]
  · next later => exact hr.fieldStart (by simpa using later)

/-- A bit before the last goes to its field. -/
theorem acquireBit (hr : Receiving w e0 s) (position : s.idx = e0 + 2 * s.h * s.k.toNat)
    (bit : s.bitNow = BitVec.ofBool (w.getLsbD s.k.toNat)) (hk : s.k ≠ 31#5) :
    Receiving w e0 (fieldOp s.k (acquire s.k s)) := by
  have adv := fieldOp_advances hk (acquire s.k s)
  have counter : (fieldOp s.k (acquire s.k s)).k.toNat = s.k.toNat + 1 := by
    rw [adv.counter, toNat_succ_of_ne_last hk]
  have now : (acquire s.k s).bitNow = BitVec.ofBool (w.getLsbD s.k.toNat) := by
    simpa [State.bitNow] using bit
  constructor
  case wordStart => simp [hr.acquire_wordStart position]
  case fieldStart =>
    intro inside
    have same : fieldFirst (s.k.toNat + 1) = fieldFirst s.k.toNat :=
      fieldFirst_succ_of_ne (by rw [← counter]; exact mt (isFieldStart_iff _).mpr (by simp [inside]))
    rw [counter, same]
    simpa using hr.acquire_fieldStart position
  case labelRaw => rw [counter, adv.labelRaw, now, acquire_labelRaw]; exact hr.labelRaw.receive
  case sdi => rw [counter, adv.sdi, now, acquire_sdi]; exact hr.sdi.receive
  case data => rw [counter, adv.data, now, acquire_data]; exact hr.data.receive
  case ssm => rw [counter, adv.ssm, now, acquire_ssm]; exact hr.ssm.receive

/-- The verdict at the last bit is that of the word. -/
theorem parityOk (hr : Receiving w e0 s) (last : s.k.toNat = 31)
    (bit : s.bitNow = BitVec.ofBool (w.getLsbD s.k.toNat)) :
    State.parityOk { acquire s.k s with par := s.bitNow } = (popcount w % 2 == 1) := by
  have label := hr.labelRaw.eq_extractLsb' (by omega)
  have sdi := hr.sdi.eq_extractLsb' (by omega)
  have data := hr.data.eq_extractLsb' (by omega)
  have ssm := hr.ssm.eq_extractLsb' (by omega)
  rw [State.parityOk, acquire_labelRaw, acquire_sdi, acquire_data, acquire_ssm, label, sdi, data, ssm, bit, last,
    popcount_fields]

/-- Bit `k` emits its events of the ideal word. -/
theorem events (hr : Receiving w e0 s) (position : s.idx = e0 + 2 * s.h * s.k.toNat)
    (bit : s.bitNow = BitVec.ofBool (w.getLsbD s.k.toNat)) :
    [.bitValue s.idx s.spanEnd s.bitNow, .bitOrdinal s.idx s.spanEnd (s.k.toNat + 1)] ++
      fieldEvents s.k (acquire s.k s) = idealBitEvents e0 s.h w s.k.toNat := by
  have word := hr.acquire_wordStart position
  have field := hr.acquire_fieldStart position
  have now : (acquire s.k s).bitNow = s.bitNow := by simp [State.bitNow]
  have ends : (acquire s.k s).spanEnd = s.spanEnd := by simp [State.spanEnd]
  have complete {first n : Nat} {v : BitVec n} (h : Received w first s.k.toNat v) (le : first + n ≤ s.k.toNat + 1) :
      receive first s.k s.bitNow v = w.extractLsb' first n := by
    rw [bit]
    exact h.receive.eq_extractLsb' le
  rw [idealBitEvents, ← position, ← bit, fieldEvents, now, ends]
  congr 1
  split_ifs with label sdi data ssm last
  · rw [field, acquire_labelRaw, complete hr.labelRaw (by omega), label]; rfl
  · rw [field, acquire_sdi, complete hr.sdi (by omega), sdi]; rfl
  · rw [field, acquire_data, complete hr.data (by omega), data]; rfl
  · rw [field, acquire_ssm, complete hr.ssm (by omega), ssm]; rfl
  · rw [hr.parityOk last bit, field, word, bit, last, extractLsb'_last, State.spanEnd, position, last]; rfl
  · rfl

end Receiving

/-! ## The samples between two rising edges -/

/-- Sample `x` after sample `p` is no rising edge, since the level is held or both lines are low. -/
def HeldOrNull (p x : Sample) : Prop := x = p ∨ x = Sample.N

theorem rise_of_heldOrNull {s : State} {p : Sample} (hprev : s.prev = some p) (h : HeldOrNull p s.line) :
    s.rise = false := by
  rw [Bool.eq_false_iff, ne_eq, rise_iff hprev]
  obtain held | null := h
  · simp [held]
  · simp [null, Sample.N]

/-- Samples without a rising edge, up to the bound, are only consumed and counted. -/
theorem run_of_quiet {xs : List Sample} {s : State} {p : Sample} {rest : List HostInput} (hs : s.Unbounded)
    (hphase : s.phase = .sync ∨ s.phase = .bit) (hprev : s.prev = some p) (quiet : (p :: xs).IsChain HeldOrNull)
    (early : s.phase = .bit → s.idx + xs.length ≤ s.eLast + 3 * s.h) (hhost : s.host = supply xs ++ rest) :
    ∃ o l r, Host.Core.run core xs.length s = .next
      { s with
        host := rest, out := o, line := l, prev := some ((p :: xs).getLast (by simp)), idx := s.idx + xs.length,
        runLen := r } := by
  induction xs generalizing s p with
  | nil =>
    refine ⟨s.out, s.line, s.runLen, ?_⟩
    have host : s.host = rest := hhost
    have unchanged : s = { s with host := rest, prev := some p } := by rw [← host, ← hprev]
    exact congrArg Host.Outcome.next unchanged
  | cons x xs ih =>
    obtain ⟨held, later⟩ := List.isChain_cons_cons.mp quiet
    rw [List.length_cons] at early
    obtain ⟨r, hstep⟩ := step_of_quiet (x := x) (rest := supply xs ++ rest) hs hhost hphase
      (rise_of_heldOrNull (s := s.presented x (supply xs ++ rest)) hprev held) fun h => by have := early h; omega
    obtain ⟨o, l, r', hrun⟩ := ih
      (s := { s with
        host := supply xs ++ rest, out := [], line := x, prev := some x, idx := s.idx + 1, runLen := r })
      { hs with } hphase rfl later (fun h => by have := early h; simp only; omega) rfl
    refine ⟨o, l, r', run_succ hstep (hrun.trans ?_)⟩
    simp [Nat.add_assoc, Nat.add_comm 1]

/-- An ideal bit is a rising edge from NULL and then samples without one, back to NULL (30_encoding.md R117). -/
theorem idealBit_eq {h : Nat} (positive : 1 ≤ h) (b : Bool) :
    ∃ x xs, idealBit h b = x :: xs ∧ xs.length + 1 = 2 * h ∧ x.pos = b ∧ (x.neg = true ∨ x.pos = true) ∧
      (x :: xs).IsChain HeldOrNull ∧ (x :: xs).getLast (by simp) = Sample.N := by
  obtain ⟨m, rfl⟩ := Nat.exists_eq_add_of_le' positive
  have chain (x : Sample) : (List.replicate (m + 1) x ++ List.replicate (m + 1) Sample.N).IsChain HeldOrNull :=
    List.isChain_append.mpr ⟨List.isChain_replicate_of_rel _ (.inl rfl), List.isChain_replicate_of_rel _ (.inl rfl),
      fun _ _ y hy => .inr (List.eq_of_mem_replicate (List.mem_of_mem_head? hy))⟩
  refine ⟨if b then Sample.H else Sample.L,
    List.replicate m (if b then Sample.H else Sample.L) ++ List.replicate (m + 1) Sample.N, rfl, ?_, ?_, ?_,
    chain _, ?_⟩
  · simp
    omega
  · cases b <;> rfl
  · cases b <;> simp [Sample.H, Sample.L]
  · simp

/-! ## The reception of an ideal word (42_field_extractor.md R182) -/

/-- `s` has received the bits of ideal word `w` before bit `k`, the word begun at the next sample of `s₀`. -/
structure Progress (s₀ : State) (w : BitVec 32) (k : Nat) (s : State) : Prop where
  unbounded : s.Unbounded
  cfg : s.cfg = s₀.cfg
  h : s.h = s₀.h
  phase : s.phase = .sync ∨ s.phase = .bit
  counter : s.k = BitVec.ofNat 5 k
  receiving : Receiving w s₀.idx s
  stream : withoutValues s.stream =
    withoutValues s₀.stream ++ (List.range k).flatMap (idealBitEvents s₀.idx s₀.h w)

/-- Bit `k` of the word, or for 32 the end of the word, is due at the next sample. -/
structure BitDue (s₀ : State) (w : BitVec 32) (k : Nat) (s : State) : Prop extends Progress s₀ w k s where
  inv : s.Inv
  prev : s.prev = some Sample.N
  gap : k = 0 → s.gapOk = true
  position : s.idx = s₀.idx + 2 * s₀.h * k

theorem withoutValues_append (as bs : List Event) :
    withoutValues (as ++ bs) = withoutValues as ++ withoutValues bs := List.filter_append _ _

theorem withoutValues_idealBitEvents (e0 h : Nat) (w : BitVec 32) (k : Nat) :
    withoutValues (idealBitEvents e0 h w k) = idealBitEvents e0 h w k := by
  rw [withoutValues, idealBitEvents, List.filter_eq_self]
  split_ifs <;> simp [Event.kind]

/-- Beside a `Value`, the acquisition of a bit of the ideal word emits its events. -/
theorem Receiving.acquired_out {w : BitVec 32} {e0 : Nat} {s : State} (hr : Receiving w e0 s)
    (position : s.idx = e0 + 2 * s.h * s.k.toNat) (bit : s.bitNow = BitVec.ofBool (w.getLsbD s.k.toNat))
    (silent : s.out = []) :
    withoutValues (fieldOp s.k (acquire s.k s)).out = idealBitEvents e0 s.h w s.k.toNat := by
  obtain ⟨values, out, few⟩ := fieldOp_out s.k (acquire s.k s)
  have dropped : withoutValues values = [] := by
    obtain rfl | ⟨-, ev, value, rfl⟩ := few
    · rfl
    · simp [withoutValues, value]
  rw [out, acquire_out, silent, List.nil_append, hr.events position bit, withoutValues_append, dropped,
    List.append_nil, withoutValues_idealBitEvents]

namespace BitDue

variable {s₀ s : State} {w : BitVec 32} {k : Nat}

theorem index (hs : BitDue s₀ w k s) (hk : k < 32) : s.k.toNat = k := by
  rw [hs.counter, BitVec.toNat_ofNat]
  omega

/-- The rising edge of bit `k` acquires it. -/
theorem step_acquires (hs : BitDue s₀ w k s) (hk : k < 32) {x : Sample} {rest : List HostInput}
    (hhost : s.host = .sample x :: rest) (high : x.neg = true ∨ x.pos = true) :
    step s = .next (consumeSample (fieldOp s.k (acquire s.k (s.presented x rest)))).delivered := by
  have rise : (s.presented x rest).rise = true :=
    (rise_iff (s := s.presented x rest) hs.prev).mpr (high.imp (fun h => ⟨rfl, h⟩) fun h => ⟨rfl, h⟩)
  refine step_of_acquires hs.unbounded hhost ?_
  obtain hphase | hphase := hs.phase
  · have first : s.k = 0#5 := hs.inv.k_eq_zero (by simp [hphase])
    have zero : k = 0 := by rw [← hs.index hk, first]; rfl
    exact .inr ⟨hphase, first, rise, hs.gap zero⟩
  · exact .inl ⟨hphase, .inl rise⟩

/-- The acquisition of bit `k` adds its events and its place in the word. -/
theorem progress_of_acquired (hs : BitDue s₀ w k s) (hk : k < 32) {x : Sample} {rest : List HostInput}
    (level : x.pos = w.getLsbD k) {u : State} (hstep : step s = .next u)
    (hu : u = (consumeSample (fieldOp s.k (acquire s.k (s.presented x rest)))).delivered) :
    Progress s₀ w (k + 1) u := by
  have index := hs.index hk
  have acquired : BitAcquired s.k u := hu ▸ bitAcquired s.k (s.presented x rest)
  have inv := step_keeps_inv hs.inv hstep
  have receiving : Receiving w s₀.idx (s.presented x rest) := { hs.receiving with }
  have position : s.idx = s₀.idx + 2 * s.h * s.k.toNat := by rw [hs.position, hs.h, index]
  have bit : (s.presented x rest).bitNow = BitVec.ofBool (w.getLsbD s.k.toNat) := by rw [index, ← level]; rfl
  constructor
  case unbounded =>
    obtain ⟨rst, idxWidth, cntWidth⟩ := hs.unbounded
    constructor <;> simpa [hu, State.delivered, State.presented]
  case cfg => simpa [hu, State.delivered, State.presented] using hs.cfg
  case h => simpa [hu, State.delivered, State.presented] using hs.h
  case phase => exact hu ▸ fieldOp_phase s.k _
  case counter => rw [acquired.counter, hs.counter, ← BitVec.ofNat_add]
  case receiving =>
    by_cases last : s.k = 31#5
    · exact receiving_of_k_eq_zero inv (by rw [acquired.counter, last]; rfl) w _
    · exact hu ▸ { receiving.acquireBit position bit last with }
  case stream =>
    have out : withoutValues (fieldOp s.k (acquire s.k (s.presented x rest))).out =
        idealBitEvents s₀.idx s₀.h w k := by
      rw [← hs.h, ← index]
      exact receiving.acquired_out position bit rfl
    have stream : u.stream = s.stream ++ (fieldOp s.k (acquire s.k (s.presented x rest))).out := by
      simp [hu, State.delivered, State.presented]
    rw [stream, withoutValues_append, hs.stream, List.range_succ, List.flatMap_append, List.flatMap_singleton,
      List.append_assoc, out]

/-- A bit is acquired at its rising edge, and the rest of its samples are quiet. -/
theorem run_idealBit (hs : BitDue s₀ w k s) (hk : k < 32) {rest : List HostInput}
    (hhost : s.host = supply (idealBit s₀.h (w.getLsbD k)) ++ rest) :
    ∃ t, Host.Core.run core (2 * s₀.h) s = .next t ∧ BitDue s₀ w (k + 1) t ∧ t.host = rest := by
  have measured : 1 ≤ s₀.h := hs.h ▸ hs.inv.measured hs.phase
  obtain ⟨x, xs, samples, length, level, high, quiet, null⟩ := idealBit_eq measured (w.getLsbD k)
  rw [samples] at hhost
  obtain ⟨u, hstep, hu⟩ : ∃ u, step s = .next u ∧
      u = (consumeSample (fieldOp s.k (acquire s.k (s.presented x (supply xs ++ rest))))).delivered :=
    ⟨_, hs.step_acquires hk hhost high, rfl⟩
  have progress := hs.progress_of_acquired hk level hstep hu
  have acquired : BitAcquired s.k u := hu ▸ bitAcquired s.k _
  have idx : u.idx = s.idx + 1 := by simp [hu, State.delivered, State.presented]
  have early : u.phase = .bit → u.idx + xs.length ≤ u.eLast + 3 * u.h := fun hphase => by
    have inside : s.k ≠ 31#5 := fun last => by simp [acquired.last last] at hphase
    have eLast := (acquired.inside inside).2
    rw [progress.h]
    omega
  obtain ⟨o, l, r, hrun⟩ := run_of_quiet progress.unbounded progress.phase (p := x)
    (by simp [hu, State.delivered, State.presented]) quiet early (rest := rest)
    (by simp [hu, State.delivered, State.presented])
  have whole := run_succ hstep hrun
  rw [length] at whole
  refine ⟨_, whole, ?_, rfl⟩
  exact
    { progress with
      unbounded := { progress.unbounded with }
      receiving := { progress.receiving with }
      inv := run_keeps_inv hs.inv whole
      prev := congrArg some null
      gap := by simp
      position := by
        rw [Nat.mul_succ]
        simp only [idx, hs.position]
        omega }

end BitDue

/-- The first `n` bits of the word, one after the other. -/
theorem run_idealBits {s : State} {w : BitVec 32} (hs : BitDue s w 0 s) {n : Nat} (hn : n ≤ 32)
    {rest : List HostInput}
    (hhost : s.host = supply ((List.range n).flatMap fun k => idealBit s.h (w.getLsbD k)) ++ rest) :
    ∃ t, Host.Core.run core (2 * s.h * n) s = .next t ∧ BitDue s w n t ∧ t.host = rest := by
  induction n generalizing rest with
  | zero => exact ⟨s, rfl, hs, hhost⟩
  | succ n ih =>
    rw [List.range_succ, List.flatMap_append, List.flatMap_singleton, supply, List.map_append, List.append_assoc]
      at hhost
    obtain ⟨u, hrun, due, host⟩ := ih (by omega) hhost
    obtain ⟨t, hrun', due', host'⟩ := due.run_idealBit (by omega) host
    exact ⟨t, run_add hrun hrun', due', host'⟩

/-- Settles O59: by induction on the bits of the word; each is acquired at its rising edge, the rest is quiet. -/
theorem idealWordIsDecoded : Obligations.IdealWordIsDecoded := by
  intro s w rest inv hphase hprev hgap hrst hidx hcnt hhost
  have due : BitDue s w 0 s := {
    unbounded := ⟨hrst, hidx, hcnt⟩
    cfg := rfl
    h := rfl
    phase := .inl hphase
    counter := inv.k_eq_zero (by simp [hphase])
    receiving := receiving_of_k_eq_zero inv (inv.k_eq_zero (by simp [hphase])) w s.idx
    stream := (List.append_nil _).symm
    inv := inv
    prev := hprev
    gap := fun _ => (gapOk_iff s).mpr hgap
    position := rfl }
  obtain ⟨t, hrun, due', host⟩ := run_idealBits due le_rfl hhost
  have ended : t.phase ≠ .bit := fun h => due'.inv.bitIffCounting.mp h due'.counter
  have samples : 2 * s.h * 32 = 64 * s.h := by omega
  exact ⟨t, samples ▸ hrun, due'.phase.resolve_right ended, due'.h, samples ▸ due'.position, host, due'.cfg,
    due'.stream⟩

end Sys2Proof.Machine
end

section
/-! SUPPORT. The integer stages of the value scaler as arithmetic on the field, the Value event of a SCALE unit, and the
statements O35 to O38 (43_value_scaler.md R201 to R206, R208, R211). -/

namespace Sys2Proof.Machine

/-! ## The field and its sign bit (43_value_scaler.md R201, R202) -/

theorem field_eq (e : Entry) (data : BitVec 19) :
    e.field data = data.toNat / 2 ^ (e.f - 11) % 2 ^ (e.width + 1) := by
  rw [Entry.field, Entry.mask, Nat.and_two_pow_sub_one_eq_mod, Nat.shiftRight_eq_div_pow]

theorem field_lt (e : Entry) (data : BitVec 19) : e.field data < 2 ^ (e.width + 1) :=
  field_eq e data ▸ Nat.mod_lt _ (Nat.two_pow_pos _)

theorem signBit_eq_zero_iff (e : Entry) (data : BitVec 19) : e.signBit data = 0 ↔ e.field data < 2 ^ e.width := by
  rw [Entry.signBit, Nat.shiftRight_eq_div_pow, Nat.div_eq_zero_iff_lt (Nat.two_pow_pos _)]

theorem width_le_of_legal {e : Entry} (h : e.legal = true) : e.width ≤ 19 := by
  have := window_of_legal h
  unfold Entry.width
  omega

/-- A window that ends at data bit 29 has no bit above it, so the sign bit of its field is 0. -/
theorem field_lt_of_last {e : Entry} (legal : e.legal = true) (last : e.l = 29) (data : BitVec 19) :
    e.field data < 2 ^ e.width := by
  have window := window_of_legal legal
  have dataBits : 2 ^ 19 = 2 ^ (e.f - 11) * 2 ^ e.width := by
    rw [← pow_add]
    congr 1
    unfold Entry.width
    omega
  rw [field_eq]
  exact (Nat.mod_le _ _).trans_lt (Nat.div_lt_of_lt_mul (dataBits ▸ data.isLt))

/-! ## The integer stages (43_value_scaler.md R204 to R206) -/

/-- Clearing the sign bit, in the 32 bits of the scaler, leaves the bits below it. -/
theorem toNat_and_not_signBit {n w : Nat} (hn : n < 2 ^ (w + 1)) (hw : w < 32) :
    (BitVec.ofNat 32 n &&& ~~~(1#32 <<< w)).toNat = n % 2 ^ w := by
  apply Nat.eq_of_testBit_eq
  intro i
  have sign : (1#32 <<< w).getLsbD i = decide (w = i) := (BitVec.getLsbD_twoPow w i).trans (by simp [hw])
  rw [BitVec.testBit_toNat, BitVec.getLsbD_and, BitVec.getLsbD_ofNat, BitVec.getLsbD_not, sign,
    Nat.testBit_mod_two_pow]
  obtain below | at_sign | above : i < w ∨ w = i ∨ w < i := by omega
  · simp [below, below.ne', below.trans hw]
  · simp [at_sign]
  · have high : n.testBit i = false :=
      Nat.testBit_lt_two_pow (hn.trans_le (Nat.pow_le_pow_right two_pos above))
    simp [high]

/-- Complementing `n - 1` under the mask, in 32 bits, is the two's complement negation of a nonzero `n`. -/
theorem toNat_not_sub_one_and_mask {n v : Nat} (pos : 0 < n) (hn : n < 2 ^ v) (hv : v ≤ 32) :
    (~~~(BitVec.ofNat 32 n - 1#32) &&& BitVec.ofNat 32 (2 ^ v - 1)).toNat = 2 ^ v - n := by
  have le : 2 ^ v ≤ 2 ^ 32 := Nat.pow_le_pow_right two_pos hv
  have negation : (~~~(BitVec.ofNat 32 n - 1#32)).toNat = 2 ^ 32 - n := by
    rw [BitVec.toNat_not, BitVec.toNat_sub, BitVec.toNat_ofNat, BitVec.toNat_ofNat]
    omega
  have mask : (BitVec.ofNat 32 (2 ^ v - 1)).toNat = 2 ^ v - 1 :=
    Nat.mod_eq_of_lt (by have := Nat.two_pow_pos v; omega)
  obtain ⟨c, hc⟩ : 2 ^ v ∣ 2 ^ 32 - 2 ^ v := Nat.dvd_sub (Nat.pow_dvd_pow 2 hv) dvd_rfl
  have parts : 2 ^ 32 - n = 2 ^ v - n + 2 ^ v * c := by omega
  rw [BitVec.toNat_and, negation, mask, Nat.and_two_pow_sub_one_eq_mod, parts, Nat.add_mul_mod_self_left,
    Nat.mod_eq_of_lt (by omega)]

/-- R206: the magnitude is the field without its sign bit, negated when that bit is set. -/
theorem signedStage_eq {e : Entry} (legal : e.legal = true) (data : BitVec 19) :
    signedStage e data = ⟨decide (2 ^ e.width ≤ e.field data), e.field data % 2 ^ e.width⟩ := by
  have width := width_le_of_legal legal
  simp only [signedStage, signBit_eq_zero_iff]
  split_ifs with positive
  · simp [positive, Nat.mod_eq_of_lt positive]
  · rw [toNat_and_not_signBit (field_lt e data) (by omega)]
    simpa using positive

/-- R205: the field itself, or its distance to `2^(width + 1)`, negated, when the sign bit is set. -/
theorem twosStage_eq {e : Entry} (legal : e.legal = true) (data : BitVec 19) :
    twosStage e data =
      if e.field data < 2 ^ e.width then ⟨false, e.field data⟩ else ⟨true, 2 ^ (e.width + 1) - e.field data⟩ := by
  have width := width_le_of_legal legal
  simp only [twosStage, signBit_eq_zero_iff]
  split_ifs with positive
  · rfl
  · have pos : 0 < e.field data := (Nat.two_pow_pos _).trans_le (not_lt.mp positive)
    rw [Entry.mask, toNat_not_sub_one_and_mask pos (field_lt e data) (by omega)]

/-! ## The SCALE units (43_value_scaler.md R208) -/

/-- SCALE beside an entry whose span has started emits the count, sign and value of its integer stage. -/
theorem scaleWith_eq {s : State} {e : Entry} {p : Nat} (present : s.sel = some e) (start : s.phStart = some p)
    (stage : Entry → BitVec 19 → Scaled) :
    scaleWith stage s =
      { s with
        out := s.out ++ [.value p (s.phStop.getD (s.idx + s.h)) e.name (stage e s.data).count (stage e s.data).neg
          ((stage e s.data).value e.lsbWeight)] } := by
  have event (r : Scaled) :
      valueEvent r e s =
        .value p (s.phStop.getD (s.idx + s.h)) e.name r.count r.neg (r.value e.lsbWeight) := by
    rw [valueEvent, start]
    rfl
  rw [scaleWith_of_present present, event]
  rfl

theorem exec_scaleUnsigned (s : State) : exec .scaleUnsigned s = .next (scaleWith unsignedStage s) := rfl

theorem exec_scaleSigned (s : State) : exec .scaleSigned s = .next (scaleWith signedStage s) := rfl

theorem exec_scaleTwos (s : State) : exec .scaleTwos s = .next (scaleWith twosStage s) := rfl

/-- Settles O35: the integer stage is the field, with no sign. -/
theorem scaleUnsignedEmitsTheFieldTimesTheWeight : Obligations.ScaleUnsignedEmitsTheFieldTimesTheWeight := by
  refine ⟨fun s absent => ?_, fun s e p present _ start => ?_⟩
  · rw [exec_scaleUnsigned, scaleWith_of_absent absent]
  · rw [exec_scaleUnsigned, scaleWith_eq present start, unsignedStage, field_eq]
    rfl

/-- Settles O36: by the sign bit of the field. -/
theorem scaleSignedIsSignMagnitude : Obligations.ScaleSignedIsSignMagnitude := by
  refine ⟨fun s absent => ?_, fun s e p present legal start => ?_⟩
  · rw [exec_scaleSigned, scaleWith_of_absent absent]
  · intro width field mag
    have stage : signedStage e s.data = ⟨decide (2 ^ width ≤ field), mag⟩ := by
      rw [signedStage_eq legal, field_eq]
      rfl
    rw [exec_scaleSigned, scaleWith_eq present start, stage]
    split_ifs with positive
    · rw [decide_eq_false (not_le.mpr positive)]
      rfl
    · rw [decide_eq_true (not_lt.mp positive)]
      rfl

/-- Settles O37: by the sign bit of the field, whose weight `2^(width + 1)` is taken off when it is set. -/
theorem scaleTwosIsTwosComplement : Obligations.ScaleTwosIsTwosComplement := by
  refine ⟨fun s absent => ?_, fun s e p present legal start => ?_⟩
  · rw [exec_scaleTwos, scaleWith_of_absent absent]
  · intro width field
    have stage : twosStage e s.data =
        if field < 2 ^ width then ⟨false, field⟩ else ⟨true, 2 ^ (width + 1) - field⟩ := by
      rw [twosStage_eq legal, field_eq]
      rfl
    have le : field ≤ 2 ^ (width + 1) := (Nat.mod_lt _ (Nat.two_pow_pos _)).le
    have count : -((2 ^ (width + 1) - field : Nat) : Int) = (field : Int) - 2 ^ (width + 1) := by
      push_cast [le]
      ring
    rw [exec_scaleTwos, scaleWith_eq present start, stage]
    split_ifs with positive
    · rfl
    · rw [← count]
      rfl

/-- Settles O38: the sign bit is the multiple of `2^width` in the field, and is 0 in a window that ends at bit 29. -/
theorem unsignedCountRecoversTheWindow : Obligations.UnsignedCountRecoversTheWindow := by
  refine ⟨fun e data _ => ?_, fun e data legal last => ?_⟩
  · have window : e.field data % 2 ^ e.width = data.toNat / 2 ^ (e.f - 11) % 2 ^ e.width := by
      rw [field_eq, Nat.mod_mod_of_dvd _ (Nat.pow_dvd_pow 2 e.width.le_succ)]
    exact_mod_cast congrArg Int.ofNat window
  · have positive := field_lt_of_last legal last data
    exact ⟨by rw [signedStage_eq legal, decide_eq_false (not_le.mpr positive)],
      by rw [twosStage_eq legal, if_pos positive]⟩

end Sys2Proof.Machine
end

section
/-! SUPPORT. The product on special operands, its sign rule, the negation of an operand, and the statements O39 and O42
(43_value_scaler.md R209, R211, 93_implementation_defined.md U8). -/

namespace Sys2Proof.Machine

/-! ## The fields of special data -/

theorem isNaN_signed_iff (neg : Bool) {b : Nat} (hb : b < 2 ^ 63) :
    F64.isNaN (F64.signed neg b) = true ↔ F64.infBits < b := by
  rw [F64.isNaN, expField_signed neg hb, fracField_signed neg hb, Bool.and_eq_true, beq_iff_eq, bne_iff_ne]
  unfold F64.infBits
  omega

theorem isZero_signed_zero (neg : Bool) : F64.isZero (F64.signed neg 0) = true := by
  revert neg; decide

theorem freeNaN_eq_signed (a b : Binary64) :
    F64.freeNaN a b = F64.signed (Config.nanSign a b) (0xFFF * 2 ^ 51 + (Config.nanPayload a b).toNat) := by
  have payload : (Config.nanPayload a b).toNat < 2 ^ 51 := (Config.nanPayload a b).isLt
  have bits : (0xFFF#12 ++ Config.nanPayload a b).toNat = 0xFFF * 2 ^ 51 + (Config.nanPayload a b).toNat := by
    rw [BitVec.toNat_append, ← Nat.shiftLeft_add_eq_or_of_lt payload, Nat.shiftLeft_eq]
    rfl
  rw [F64.freeNaN, F64.signed, ← bits]
  exact congrArg (BitVec.ofBool _ ++ ·) ((BitVec.ofNat_toNat 63 _).trans (BitVec.setWidth_eq _)).symm

/-- A NaN that an operation delivers is one whose quiet bit is set, whatever its free sign and payload. -/
theorem freeNaN_quiet (a b : Binary64) :
    F64.isNaN (F64.freeNaN a b) = true ∧ (F64.freeNaN a b).getLsbD 51 = true := by
  have payload : (Config.nanPayload a b).toNat < 2 ^ 51 := (Config.nanPayload a b).isLt
  rw [freeNaN_eq_signed]
  constructor
  · rw [isNaN_signed_iff _ (by omega)]
    unfold F64.infBits
    omega
  · rw [← BitVec.testBit_toNat, toNat_signed _ (by omega), Nat.testBit_eq_decide_div_mod_eq, decide_eq_true_iff]
    omega

theorem not_isNaN_of_isInf {a : Binary64} (h : F64.isInf a = true) : F64.isNaN a = false := by
  simp_all [F64.isInf, F64.isNaN]

theorem not_isZero_of_isInf {a : Binary64} (h : F64.isInf a = true) : F64.isZero a = false := by
  simp_all [F64.isInf, F64.isZero]

/-! ## The packed bits, apart from the sign -/

/-- The lower 63 bits of `F64.roundPack`. -/
def packedBits (m : Nat) (e : Int) : Nat := if m = 0 then 0 else min (roundedBits m e) F64.infBits

theorem packedBits_le (m : Nat) (e : Int) : packedBits m e ≤ F64.infBits := by
  unfold packedBits
  split
  · exact Nat.zero_le _
  · exact min_le_right _ _

theorem roundPack_eq_signed (neg : Bool) (m : Nat) (e : Int) :
    F64.roundPack neg m e = F64.signed neg (packedBits m e) := by
  unfold packedBits
  split_ifs with hm
  · rw [hm, roundPack_zero]
  · exact roundPack_eq neg hm e

/-! ## The product by its operands (43_value_scaler.md R209) -/

/-- The operands whose product is a NaN by the rules of IEEE 754. -/
def InvalidProduct (a b : Binary64) : Prop :=
  F64.isNaN a = true ∨ F64.isNaN b = true ∨ (F64.isInf a = true ∧ F64.isZero b = true) ∨
    (F64.isZero a = true ∧ F64.isInf b = true)

/-- The lower 63 bits of a valid product. -/
def productBits (a b : Binary64) : Nat :=
  if F64.isInf a || F64.isInf b then F64.infBits else packedBits (F64.sig a * F64.sig b) (F64.exp a + F64.exp b)

theorem productBits_le (a b : Binary64) : productBits a b ≤ F64.infBits := by
  unfold productBits
  split
  · exact le_rfl
  · exact packedBits_le _ _

theorem productBits_of_isInf {a b : Binary64} (h : F64.isInf a = true ∨ F64.isInf b = true) :
    productBits a b = F64.infBits := if_pos (Bool.or_eq_true_iff.mpr h)

theorem mul_of_invalid {a b : Binary64} (h : InvalidProduct a b) : F64.mul a b = F64.freeNaN a b := by
  unfold F64.mul
  obtain nan | nan | ⟨inf, zero⟩ | ⟨zero, inf⟩ := h
  · simp [nan]
  · simp [nan]
  · simp [inf, zero]
  · simp [inf, zero]

/-- The sign rule of IEEE 754 (R209): a product that is not invalid takes the exclusive or of the signs. -/
theorem mul_of_valid {a b : Binary64} (valid : ¬ InvalidProduct a b) :
    F64.mul a b = F64.signed (F64.sign a != F64.sign b) (productBits a b) := by
  simp only [InvalidProduct, not_or, not_and, Bool.not_eq_true] at valid
  obtain ⟨nanA, nanB, zeroB, zeroA⟩ := valid
  by_cases infA : F64.isInf a = true
  · simp [F64.mul, productBits, nanA, nanB, infA, zeroB infA, not_isZero_of_isInf infA]
  by_cases infB : F64.isInf b = true
  · have nonzeroA : F64.isZero a = false := by
      rw [← Bool.not_eq_true]
      exact fun zero => absurd infB (by simp [zeroA zero])
    simp [F64.mul, productBits, nanA, nanB, infB, nonzeroA, not_isZero_of_isInf infB]
  · simp [F64.mul, productBits, nanA, nanB, infA, infB, roundPack_eq_signed]

theorem isNaN_mul_iff (a b : Binary64) : F64.isNaN (F64.mul a b) = true ↔ InvalidProduct a b := by
  by_cases h : InvalidProduct a b
  · rw [mul_of_invalid h]
    exact iff_of_true (freeNaN_quiet a b).1 h
  · have le := productBits_le a b
    rw [mul_of_valid h, isNaN_signed_iff _ (lt_of_le_of_lt le (by decide))]
    exact iff_of_false (not_lt.mpr le) h

theorem not_invalidProduct_of_number {a b : Binary64} (h : F64.isNaN (F64.mul a b) = false) : ¬ InvalidProduct a b := by
  rw [← isNaN_mul_iff, h]
  exact Bool.false_ne_true

theorem isInf_mul {a b : Binary64} (valid : ¬ InvalidProduct a b) (h : F64.isInf a = true ∨ F64.isInf b = true) :
    F64.isInf (F64.mul a b) = true := by
  rw [mul_of_valid valid, isInf_signed_iff _ (productBits_le a b), productBits_of_isInf h]

/-- Settles O42: a product is invalid and the free quiet NaN, or has the sign rule and the bits of its magnitude. -/
theorem productOfSpecialOperands : Obligations.ProductOfSpecialOperands := by
  intro a b
  refine ⟨isNaN_mul_iff a b, fun nan => ?_, fun inf nan zero => ?_, fun inf nan zero => ?_, fun finA finB zero => ?_,
    fun nan => ?_⟩
  · rw [mul_of_invalid ((isNaN_mul_iff a b).mp nan)]
    exact (freeNaN_quiet a b).2
  · refine isInf_mul ?_ (.inl inf)
    simp [InvalidProduct, nan, zero, not_isNaN_of_isInf inf, not_isZero_of_isInf inf]
  · refine isInf_mul ?_ (.inr inf)
    simp [InvalidProduct, nan, zero, not_isNaN_of_isInf inf, not_isZero_of_isInf inf]
  · have sig : F64.sig a * F64.sig b = 0 := by
      rwa [Nat.mul_eq_zero, sig_eq_zero_iff, sig_eq_zero_iff]
    rw [mul_of_isFinite finA finB, sig, roundPack_zero]
    exact isZero_signed_zero _
  · rw [mul_of_valid (not_invalidProduct_of_number nan), sign_signed]

/-! ## Negation of an operand (43_value_scaler.md R205, R206) -/

@[simp] theorem sign_fneg (b : Binary64) : F64.sign (F64.fneg b) = !F64.sign b := by
  simp [F64.sign, F64.fneg]

@[simp] theorem expField_fneg (b : Binary64) : F64.expField (F64.fneg b) = F64.expField b := by
  have bits : (F64.fneg b).extractLsb' 52 11 = b.extractLsb' 52 11 := by
    rw [F64.fneg, BitVec.extractLsb'_xor]
    exact BitVec.xor_zero
  rw [F64.expField, bits, F64.expField]

@[simp] theorem fracField_fneg (b : Binary64) : F64.fracField (F64.fneg b) = F64.fracField b := by
  have bits : (F64.fneg b).extractLsb' 0 52 = b.extractLsb' 0 52 := by
    rw [F64.fneg, BitVec.extractLsb'_xor]
    exact BitVec.xor_zero
  rw [F64.fracField, bits, F64.fracField]

theorem invalidProduct_fneg_iff (a b : Binary64) : InvalidProduct a (F64.fneg b) ↔ InvalidProduct a b := by
  simp [InvalidProduct, F64.isNaN, F64.isInf, F64.isZero]

theorem productBits_fneg (a b : Binary64) : productBits a (F64.fneg b) = productBits a b := by
  simp [productBits, F64.isInf, F64.sig, F64.exp]

theorem fneg_signed (neg : Bool) (n : Nat) : F64.fneg (F64.signed neg n) = F64.signed (!neg) n := by
  have signBit : BitVec.ofBool neg ^^^ 1#1 = BitVec.ofBool (!neg) := by revert neg; decide
  have bits : F64.fneg (F64.signed neg n) = (BitVec.ofBool neg ++ BitVec.ofNat 63 n) ^^^ (1#1 ++ 0#63) := rfl
  rw [bits, BitVec.xor_append, signBit, BitVec.xor_zero, F64.signed]

/-- Negating an operand negates a product that is not a NaN. -/
theorem mul_fneg {a b : Binary64} (number : F64.isNaN (F64.mul a b) = false) :
    F64.mul a (F64.fneg b) = F64.fneg (F64.mul a b) := by
  have valid := not_invalidProduct_of_number number
  rw [mul_of_valid valid, mul_of_valid ((invalidProduct_fneg_iff a b).not.mpr valid), productBits_fneg, fneg_signed,
    sign_fneg, Bool.bne_not]

/-- Settles O39: the two fields have the same bits below the sign bit, and negation commutes with the product. -/
theorem signedValuesAreSymmetric : Obligations.SignedValuesAreSymmetric := by
  intro e d d' legal bitClear bitSet number
  have clearStage : signedStage e d' = ⟨false, e.field d'⟩ := by
    rw [signedStage_eq legal, decide_eq_false (not_le.mpr bitClear), Nat.mod_eq_of_lt bitClear]
  have setStage : signedStage e d = ⟨true, e.field d'⟩ := by
    rw [signedStage_eq legal, bitSet, decide_eq_true (Nat.le_add_left _ _), Nat.add_mod_right, Nat.mod_eq_of_lt bitClear]
  rw [clearStage] at number
  rw [clearStage, setStage]
  exact ⟨rfl, rfl, rfl, mul_fneg number⟩

end Sys2Proof.Machine
end

section
/-! SUPPORT. Rounding a significand that fits its unit is exact, and the statements O43 and O44 (43_value_scaler.md R209,
R210). -/

namespace Sys2Proof.Machine

/-! ## Exact packing -/

/-- A significand below `2^53` is a whole number of its units of rounding. -/
theorem roundedUnits_eq_exactUnits {m : Nat} {e : Int} (hm : m < 2 ^ 53) (low : -1074 ≤ e) :
    (roundedUnits m e : ℚ) = exactUnits m e := by
  have bits : Nat.log2 m < 53 := by
    by_cases zero : m = 0
    · subst zero; decide
    · exact (Nat.log2_lt zero).mpr hm
  have unit : F64.unitExp m e ≤ e := max_le (by omega) low
  obtain ⟨d, hd⟩ := Int.eq_ofNat_of_zero_le (sub_nonneg.mpr unit)
  rw [roundedUnits, F64.inUnits, if_pos unit, exactUnits, hd]
  simp

theorem isFinite_roundPack_iff (neg : Bool) (m : Nat) (e : Int) :
    F64.isFinite (F64.roundPack neg m e) = true ↔ |exactValue neg m e| < (2 : ℚ) ^ 1024 - (2 : ℚ) ^ 970 := by
  have le := packedBits_le m e
  rw [← not_le, ← isInf_roundPack_iff, roundPack_eq_signed, isFinite_signed_iff neg le, isInf_signed_iff neg le]
  exact le.lt_iff_ne

/-- In the range of the exponents of finite data, `F64.roundPack` of a significand below `2^53` is exact. -/
theorem roundPack_exact (neg : Bool) {m : Nat} {e : Int} (hm : m < 2 ^ 53) (low : -1074 ≤ e) (high : e ≤ 971) :
    F64.isFinite (F64.roundPack neg m e) = true ∧ F64.toRat (F64.roundPack neg m e) = exactValue neg m e := by
  have fin : F64.isFinite (F64.roundPack neg m e) = true := by
    have largest : (m : ℚ) ≤ 2 ^ 53 - 1 := by
      have : (m : ℚ) + 1 ≤ 2 ^ 53 := by exact_mod_cast hm
      linarith
    rw [isFinite_roundPack_iff, abs_exactValue, overflow_threshold_eq]
    calc (m : ℚ) * 2 ^ e ≤ (2 ^ 53 - 1) * 2 ^ (971 : ℤ) := by gcongr; exact one_le_two
      _ < ((2 ^ 53 : Nat) - 1 / 2) * 2 ^ (971 : ℤ) := mul_lt_mul_of_pos_right (by norm_num) (by positivity)
  refine ⟨fin, ?_⟩
  rw [(roundPack_of_finite neg m e fin).1, exactValue, roundedUnits_eq_exactUnits hm low, exactUnits_mul_unit, exactValue]

/-- Settles O43: `n` is a significand with the unit 1. -/
theorem integerConversionIsExact : Obligations.IntegerConversionIsExact := by
  intro n hn
  obtain ⟨fin, value⟩ := roundPack_exact false hn (e := 0) (by decide) (by decide)
  exact ⟨fin, value.trans (by simp [exactValue, signFactor])⟩

theorem exactValue_div_two_pow (neg : Bool) (m n : Nat) (e : Int) :
    exactValue neg m (e - n) = exactValue neg m e / 2 ^ n := by
  unfold exactValue
  rw [zpow_sub₀ two_ne_zero, zpow_natCast]
  ring

theorem divPow2_of_isFinite {a : Binary64} (h : F64.isFinite a = true) (n : Nat) :
    F64.divPow2 a n = F64.roundPack (F64.sign a) (F64.sig a) (F64.exp a - n) := by
  simp [F64.divPow2, not_isNaN_of_isFinite h, not_isInf_of_isFinite h]

theorem exp_le_of_isFinite {a : Binary64} (h : F64.isFinite a = true) : F64.exp a ≤ 971 := by
  have lt : F64.expField a < 2 ^ 11 := (a.extractLsb' 52 11).isLt
  rw [F64.isFinite, bne_iff_ne] at h
  unfold F64.exp
  split <;> omega

/-- Settles O44: the quotient has the significand of the dividend, in a unit that is still one of binary64. -/
theorem msbWeightIsExactInTheNormalRange : Obligations.MsbWeightIsExactInTheNormalRange := by
  intro a n fin hn
  have unit : F64.exp a = F64.expField a - 1075 := if_neg (by omega)
  have high := exp_le_of_isFinite fin
  rw [divPow2_of_isFinite fin, toRat_eq_exactValue a, ← exactValue_div_two_pow]
  exact roundPack_exact _ (sig_lt a) (by omega) (by omega)

end Sys2Proof.Machine
end

section
/-! SUPPORT. The word value of the five fields, its number, its 1 bits and their exclusive or, and the statements O31
and O32 (30_encoding.md R88, 44_parity.md R230, R231). -/

namespace Sys2Proof.Machine

/-! ## Concatenation -/

theorem toNat_append_eq_add {m n : Nat} (v : BitVec m) (u : BitVec n) :
    (v ++ u).toNat = v.toNat * 2 ^ n + u.toNat := by
  rw [BitVec.toNat_append, ← Nat.shiftLeft_add_eq_or_of_lt u.isLt, Nat.shiftLeft_eq]

/-- The low `n` places of a concatenation are those of `u`, the `m` places above them those of `v`. -/
theorem popcount_append {m n : Nat} (v : BitVec m) (u : BitVec n) : popcount (v ++ u) = popcount v + popcount u := by
  have low : (List.range n).countP (fun j => (v ++ u).getLsbD j) = popcount u :=
    List.countP_congr fun j hj => by simp [BitVec.getLsbD_append, List.mem_range.mp hj]
  have high : (List.range m).countP (fun j => (v ++ u).getLsbD (n + j)) = popcount v := by
    simp [popcount, BitVec.getLsbD_append]
  have places : popcount (v ++ u) = (List.range (n + m)).countP fun j => (v ++ u).getLsbD j := by
    rw [Nat.add_comm n m, popcount]
  rw [places, countP_range_add, low, high, Nat.add_comm]

theorem popcount_bit (b : Bit) : popcount b = b.toNat := by revert b; decide

/-! ## The word value (30_encoding.md R88) -/

theorem toNat_wordValue (labelRaw : BitVec 8) (sdi : BitVec 2) (data : BitVec 19) (ssm : BitVec 2) (par : Bit) :
    (wordValue labelRaw sdi data ssm par).toNat =
      labelRaw.toNat + sdi.toNat * 2 ^ 8 + data.toNat * 2 ^ 10 + ssm.toNat * 2 ^ 29 + par.toNat * 2 ^ 31 := by
  simp only [wordValue, toNat_append_eq_add]
  ring

theorem popcount_wordValue (labelRaw : BitVec 8) (sdi : BitVec 2) (data : BitVec 19) (ssm : BitVec 2) (par : Bit) :
    popcount (wordValue labelRaw sdi data ssm par) =
      popcount labelRaw + popcount sdi + popcount data + popcount ssm + par.toNat := by
  simp only [wordValue, popcount_append, popcount_bit]
  ring

/-! ## Parity (44_parity.md R230, R231) -/

/-- The exclusive or of the values of `p` is the parity of the number of its true values: each of them flips both. -/
theorem foldl_xor_eq_parity (p : Nat → Bool) (l : List Nat) (acc : Bool) :
    l.foldl (fun acc j => acc ^^ p j) acc = (acc ^^ (l.countP p % 2 == 1)) := by
  induction l generalizing acc with
  | nil => simp
  | cons j l ih =>
    rw [List.foldl_cons, ih, List.countP_cons]
    cases p j
    · simp
    · have flip : ((l.countP p + 1) % 2 == 1) = !(l.countP p % 2 == 1) := by
        obtain even | odd := Nat.mod_two_eq_zero_or_one (l.countP p)
        · simp [Nat.add_mod, even]
        · simp [Nat.add_mod, odd]
      simp [flip]

/-- Settles O31: the update of PARITY_CHECK is that one event. -/
theorem parityCheckEmitsTheVerdict : Obligations.ParityCheckEmitsTheVerdict := fun _ => rfl

/-- Settles O32: the word value is a concatenation of the five fields, and the exclusive or counts modulo 2. -/
theorem parityIsThatOfTheWordValue : Obligations.ParityIsThatOfTheWordValue := by
  intro labelRaw sdi data ssm par w
  refine ⟨toNat_wordValue .., (popcount_wordValue ..).symm, ?_⟩
  rw [foldl_xor_eq_parity, Bool.false_xor, popcount]

end Sys2Proof.Machine
end

section
/-! SUPPORT. RESOLVE_STATIC and RESOLVE_TABLE as searches on a key, and the statements O33 and O34 (45_resolver.md R241,
R242). -/

namespace Sys2Proof.Machine

/-! ## The rows of the LUT with a key -/

theorem LutEntry.hasKey_iff {addr : Nat} {ident : BitVec 2} {r : LutEntry} :
    r.hasKey addr ident = true ↔ r.address.toNat = addr ∧ r.identifier = ident :=
  decide_eq_true_iff

/-- `LutRead(j)` is a row with the key `(addr, ident)` (45_resolver.md R242). -/
def State.KeyAt (s : State) (addr : Nat) (ident : BitVec 2) (j : Nat) : Prop :=
  ∃ r, s.lutRead j = some r ∧ r.address.toNat = addr ∧ r.identifier = ident

theorem State.keyAt_of_lt {s : State} {addr : Nat} {ident : BitVec 2} {j : Nat} (h : j < s.cfg.lut.length) :
    s.KeyAt addr ident j ↔ (s.cfg.lut[j]).hasKey addr ident = true := by
  simp [State.KeyAt, State.lutRead, List.getElem?_eq_getElem h, LutEntry.hasKey_iff]

theorem resolveTableKey_eq_none_iff {addr : Nat} {ident : BitVec 2} {s : State} :
    resolveTableKey addr ident s = none ↔ ∀ j, ¬ s.KeyAt addr ident j := by
  rw [resolveTableKey, Option.map_eq_none_iff, List.find?_eq_none]
  constructor
  · rintro noRow j ⟨r, read, key⟩
    exact noRow r (List.mem_of_getElem? read) (LutEntry.hasKey_iff.mpr key)
  · intro noIndex r mem key
    obtain ⟨j, read⟩ := List.mem_iff_getElem?.mp mem
    exact noIndex j ⟨r, read, LutEntry.hasKey_iff.mp key⟩

/-- What RESOLVE_TABLE returns stands at the lowest index with the key: the search passed every row before it. -/
theorem resolveTableKey_first {addr : Nat} {ident : BitVec 2} {s : State} {e : Entry}
    (h : resolveTableKey addr ident s = some e) :
    ∃ j, s.KeyAt addr ident j ∧ (∀ m, m < j → ¬ s.KeyAt addr ident m) ∧
      some e = (s.lutRead j).map LutEntry.entry := by
  obtain ⟨r, search, rfl⟩ := Option.map_eq_some_iff.mp h
  obtain ⟨key, j, inside, rfl, passed⟩ := List.find?_eq_some_iff_getElem.mp search
  refine ⟨j, (State.keyAt_of_lt inside).mpr key, fun m before => ?_, ?_⟩
  · rw [State.keyAt_of_lt (before.trans inside)]
    simpa using passed m before
  · rw [State.lutRead, List.getElem?_eq_getElem inside, Option.map_some]

/-! ## The units run alone -/

theorem exec_resolveStatic (s : State) :
    exec .resolveStatic s = .next { s with sel := resolveStaticKey (disp s.labelRaw) s.sdi s } := rfl

theorem exec_resolveTable (s : State) :
    exec .resolveTable s = .next { s with sel := resolveTableKey (disp s.labelRaw) s.sdi s } := rfl

/-- Settles O33: the comparison of the key with ST_ADDR and ST_IDENT decides between the static entry and absent. -/
theorem resolveStaticMatchesItsKey : Obligations.ResolveStaticMatchesItsKey := by
  intro s
  rw [exec_resolveStatic, resolveStaticKey, State.staticEntry]

/-- Settles O34: the search of the LUT either passes every row or stops at the first one with the key. -/
theorem resolveTableTakesTheFirstMatch : Obligations.ResolveTableTakesTheFirstMatch := by
  intro s
  refine ⟨_, exec_resolveTable s, ?_⟩
  cases search : resolveTableKey (disp s.labelRaw) s.sdi s with
  | none => exact .inl ⟨rfl, resolveTableKey_eq_none_iff.mp search⟩
  | some e => exact .inr (resolveTableKey_first search)

end Sys2Proof.Machine
end

section
/-! SUPPORT. The faults of the block: FAULT_HOLD, the step of a faulted session, what no operation raises, and the
statements O9 and O51 (60_exceptions.md R262 to R264). -/

namespace Sys2Proof.Machine

/-! ## A faulted session (60_exceptions.md R263, 70_reset_and_hazards.md R303) -/

theorem exec_faultHold (s : State) : exec .faultHold s = .next s := rfl

theorem decodeDispatch_of_fault {s : State} (faulted : s.phase = .fault) :
    decodeDispatch s.dispatchWord = .ok .faultHold := by
  rw [decodeDispatch_dispatchWord, State.selected, faulted]

/-- Settles O9: phase FAULT selects FAULT_HOLD whatever the sample, and the delivery finds an empty event port. -/
theorem faultedSessionHoldsItsState : Obligations.FaultedSessionHoldsItsState := by
  refine ⟨exec_faultHold, fun _ => decodeDispatch_of_fault, fun s x rest faulted hrst hhost => ?_⟩
  have selected : decodeDispatch (State.dispatchWord { s with host := rest, out := [], line := x }) = .ok .faultHold :=
    decodeDispatch_of_fault faulted
  rw [step_sample hrst hhost selected, exec_faultHold, deliver, List.append_nil]

/-! ## No step answers a model fault -/

theorem exec_ne_fault (i : Instr) (s : State) (f : Fault) : exec i s ≠ .fault f := by
  rw [exec_eq_effect]
  split
  · exact endStep_ne_fault _ f
  · exact nofun

theorem deliver_ne_fault {r : Result} {f : Fault} (h : r ≠ .fault f) : deliver r ≠ .fault f := by
  cases r with
  | next | refused => exact nofun
  | fault => exact h

/-- The reset sequence raises the block's own faults, which are states (60_exceptions.md R262). -/
theorem startSession_ne_fault (s : State) (f : Fault) : startSession s ≠ .fault f := by
  unfold startSession
  split <;> exact nofun

theorem driveRst_ne_fault (level : Bool) (s : State) (f : Fault) : driveRst level s ≠ .fault f := by
  unfold driveRst
  split_ifs
  · exact nofun
  · exact startSession_ne_fault _ f
  · exact nofun

theorem driveConfig_ne_fault (c : Cfg) (s : State) (f : Fault) : driveConfig c s ≠ .fault f := by
  unfold driveConfig
  split_ifs <;> exact nofun

/-- Neither an interaction that runs no operation nor the selected operation answers a model fault, and every dispatch
word selects one. -/
theorem step_ne_fault (s : State) (f : Fault) : step s ≠ .fault f := by
  cases hhost : s.host with
  | nil =>
    rw [step, fetch, hhost]
    exact nofun
  | cons input rest =>
    cases input with
    | rst level =>
      rw [step_driveRst hhost]
      exact driveRst_ne_fault _ _ f
    | config c =>
      rw [step_driveConfig hhost]
      exact driveConfig_ne_fault _ _ f
    | sample x =>
      cases hrst : s.rst with
      | true =>
        rw [step_sample_of_rst hrst hhost]
        exact nofun
      | false =>
        rw [step_sample hrst hhost (decodeDispatch_dispatchWord _)]
        exact deliver_ne_fault (exec_ne_fault _ _ f)

/-! ## No operation raises a fault of the block (60_exceptions.md R264) -/

@[simp] theorem effect_faultCode (i : Instr) (s : State) : (effect i s).faultCode = s.faultCode := by
  cases i with
  | trWait | trHold | bitWait | faultHold | trEdge | trMeasure | syncLow | syncBreak | syncShort => rfl
  | bitEdge | bitTimeout => simp [effect]
  | scaleUnsigned | scaleSigned | scaleTwos | resolveStatic | resolveTable | parityCheck =>
    simp [effect, resolveStatic, resolveTable]
  | syncFire | acqLabel | acqLabelLast | acqSdi | acqSdiLast | acqData | acqDataLast | acqSsm | acqSsmLast |
    acqParity =>
    simp [effect, acqLabel, acqLabelLast, acqSdi, acqSdiLast, acqData, acqDataLast, acqSsm, acqSsmLast, acqParity]

theorem exec_faultCode {i : Instr} {s t : State} (h : exec i s = .next t) : t.faultCode = s.faultCode := by
  obtain rfl | rfl := exec_next_cases h <;> simp

/-- No row of the other phases leads to FAULT. -/
theorem sampleStep_not_fault {s t : State} (h : SampleStep s t) (running : s.phase ≠ .fault) : t.phase ≠ .fault := by
  cases h with
  | hold faulted => exact absurd faulted running
  | wait => exact running
  | edge | measure => exact nofun
  | acquire k _ =>
    obtain armed | counting := fieldOp_phase k (acquire k s)
    · simp [armed]
    · simp [counting]

/-- Settles O51: a step at a sample is a row of its phase, and only the row of FAULT stays there; with `rst` asserted
the sample writes no register. -/
theorem noFaultIsRaisedAfterReset : Obligations.NoFaultIsRaisedAfterReset := by
  refine ⟨step_ne_fault, fun _ _ _ => exec_faultCode, fun s t x rest hhost running h => ?_⟩
  cases hrst : s.rst with
  | true =>
    rw [step_sample_of_rst hrst hhost] at h
    obtain rfl := Host.Outcome.next.inj h
    exact running
  | false =>
    obtain ⟨u, sampled, rfl⟩ := step_sample_next hrst hhost h
    have kept := sampleStep_not_fault sampled running
    exact kept

end Sys2Proof.Machine
end

section
/-! SUPPORT. Decoding an encoded operation gives it back: the fields of a BIT row's word, and the statements O1 and O2
(30_encoding.md section 6). -/

namespace Sys2Proof.Machine

/-- Settles O1: the decoder computes on each written-out selector. -/
theorem writtenOutWordsDecode : Obligations.WrittenOutWordsDecode :=
  ⟨rfl, rfl, rfl, rfl, rfl, rfl, rfl, rfl, rfl, rfl, rfl, rfl⟩

/-! ## The word of a BIT row (30_encoding.md R100): filling in `K` writes bits [12:8] and no other -/

theorem getLsbD_bitRowWord (base : DispatchWord) (k : BitIndex) (i : Nat) :
    (bitRowWord base k).getLsbD i = (base.getLsbD i || !decide (i < 8) && k.getLsbD (i - 8)) := by
  by_cases inside : i < 16
  · simp [bitRowWord, inside]
  · have past : k.getLsbD (i - 8) = false := BitVec.getLsbD_of_ge _ _ (by omega)
    simp [bitRowWord, inside, past]

theorem bitRowWord_ph (base : DispatchWord) (k : BitIndex) : (bitRowWord base k).ph = base.ph := by
  apply BitVec.eq_of_getLsbD_eq
  intro i hi
  simp [DispatchWord.ph, getLsbD_bitRowWord, BitVec.getLsbD_of_ge k (13 + i - 8) (by omega)]

theorem bitRowWord_k {base : DispatchWord} (blank : base.k = 0#5) (k : BitIndex) : (bitRowWord base k).k = k := by
  apply BitVec.eq_of_getLsbD_eq
  intro i hi
  have zero : base.getLsbD (8 + i) = false := by
    have bit : base.k.getLsbD i = false := by simp [blank]
    simpa [DispatchWord.k, hi] using bit
  simp [DispatchWord.k, getLsbD_bitRowWord, hi, zero]

theorem getLsbD_bitRowWord_of_lt {base : DispatchWord} {k : BitIndex} {i : Nat} (low : i < 8) :
    (bitRowWord base k).getLsbD i = base.getLsbD i := by
  simp [getLsbD_bitRowWord, low]

theorem bitRowWord_pad (base : DispatchWord) (k : BitIndex) :
    (bitRowWord base k).extractLsb' 0 3 = base.extractLsb' 0 3 := by
  apply BitVec.eq_of_getLsbD_eq
  intro i hi
  simp [getLsbD_bitRowWord_of_lt (show i < 8 by omega)]

/-- The condition bits of the row choose between the rows of phase BIT, and `K` comes back (30_encoding.md R101). -/
theorem decodeDispatch_bitRowWord {base : DispatchWord} (pad : base.extractLsb' 0 3 = 0#3) (ph : base.ph = 0b011#3)
    (blank : base.k = 0#5) (k : BitIndex) :
    decodeDispatch (bitRowWord base k) =
      .ok (if base.getLsbD 7 then .bitEdge k else if base.getLsbD 3 then .bitTimeout k else .bitWait) := by
  have rise : (bitRowWord base k).getLsbD 7 = base.getLsbD 7 := getLsbD_bitRowWord_of_lt (by decide)
  have tmo : (bitRowWord base k).getLsbD 3 = base.getLsbD 3 := getLsbD_bitRowWord_of_lt (by decide)
  rw [decodeDispatch, bitRowWord_pad, bitRowWord_ph, bitRowWord_k blank, rise, tmo, pad, ph]
  cases base.getLsbD 7 <;> cases base.getLsbD 3 <;> rfl

/-- Settles O2: the two BIT rows carry `K` in their word, a field operation of several bits is selected by its own `k`,
and every other encoding is one fixed selector. -/
theorem decodeOfEncodeIsIdentity : Obligations.DecodeOfEncodeIsIdentity := by
  intro i wf
  cases i with
  | bitEdge k => exact decodeDispatch_bitRowWord (base := 0x6080#16) rfl rfl rfl k
  | bitTimeout k => exact decodeDispatch_bitRowWord (base := 0x6008#16) rfl rfl rfl k
  | acqLabel k => exact congrArg Except.ok (decodeAcq_of_le_six (of_decide_eq_true wf))
  | acqData k => exact congrArg Except.ok (decodeAcq_of_dataBit (of_decide_eq_true wf))
  | _ => rfl

end Sys2Proof.Machine
end

section
/-! SUPPORT. What the acquisition of a bit leaves alone, and the statement O22 (10_state.md section 4,
42_field_extractor.md section 2). -/

namespace Sys2Proof.Machine

/-- A bit outside a field leaves the field's register alone. -/
theorem receive_of_outside {w first : Nat} {k : BitIndex} (outside : k.toNat < first ∨ first + w ≤ k.toNat) (b : Bit)
    (v : BitVec w) : receive first k b v = v :=
  if_neg (by omega)

/-- Only the last bit of a word arms the gap detector (42_field_extractor.md R178). -/
theorem fieldOp_runLen {k : BitIndex} (inside : k ≠ 31#5) (s : State) : (fieldOp k s).runLen = s.runLen := by
  obtain ⟨-, h⟩ | ⟨-, h⟩ | ⟨-, h⟩ | ⟨-, h⟩ | ⟨-, -, h⟩ | ⟨-, h⟩ | ⟨-, h⟩ | ⟨-, h⟩ | ⟨last, -⟩ := fieldOp_cases k s
  case inr.inr.inr.inr.inr.inr.inr.inr => exact absurd last inside
  all_goals
    rw [h]
    simp [acqLabel, acqLabelLast, acqSdi, acqSdiLast, acqData, acqDataLast, acqSsm, acqSsmLast]

/-- Settles O22: the last bit aside, the registers of the word are those `Advances` names, and each accumulator receives
the bits of its own field only. -/
theorem acquisitionFrame : Obligations.AcquisitionFrame := by
  intro k s t h
  obtain rfl := eq_consumeSample_of_acquires h
  have advances (inside : k.toNat ≠ 31) : Advances k (acquire k s) (fieldOp k (acquire k s)) :=
    fieldOp_advances (by rintro rfl; exact inside rfl) _
  refine ⟨by simp, by simp, by simp, by simp, by simp, by simp, by simp, by simp, by simp, by simp, by simp, by simp,
    by simp, fun inside => ⟨?runLen, ?par, fun other => ?sel⟩, fun ⟨later, inside⟩ => ?label,
    fun ⟨first, last, inside⟩ => ?sdi, fun outside => ?data, fun earlier => ?ssm⟩
  case runLen => rw [consumeSample_runLen, fieldOp_runLen (by rintro rfl; exact inside rfl), acquire_runLen]
  case par => rw [consumeSample_par, (advances inside).par, acquire_par]
  case sel =>
    rw [consumeSample_sel, (advances inside).sel, if_neg (by rintro rfl; exact other rfl), acquire_sel]
  case label =>
    rw [consumeSample_labelRaw, (advances inside).labelRaw, receive_of_outside (by omega), acquire_labelRaw]
  case sdi => rw [consumeSample_sdi, (advances inside).sdi, receive_of_outside (by omega), acquire_sdi]
  case data =>
    rw [consumeSample_data, (advances (by omega)).data, receive_of_outside (by omega), acquire_data]
  case ssm => rw [consumeSample_ssm, (advances (by omega)).ssm, receive_of_outside (by omega), acquire_ssm]

end Sys2Proof.Machine
end

section
/-! SUPPORT. The reset sequence, the interactions that run no operation, and the statements O8, O45, O46, O49 and O55
(10_state.md R51, 60_exceptions.md R261, 70_reset_and_hazards.md R290 to R297). -/

namespace Sys2Proof.Machine

/-! ## Interactions that run no operation -/

/-- Settles O8: no interaction is fetched. -/
theorem stoppedHostKeepsState : Obligations.StoppedHostKeepsState := by
  intro s stopped
  rw [step, fetch, stopped]

/-- Settles O49: the assertion is one branch of `driveRst`, and `presentSample` looks at `rst` before it decodes. -/
theorem assertedResetConsumesNothing : Obligations.AssertedResetConsumesNothing := by
  refine fun s rest => ⟨fun hhost => ?_, fun x hhost hrst => step_sample_of_rst hrst hhost⟩
  rw [step_driveRst hhost]
  exact (driveRst_next_iff _ _ _).mpr (.inl ⟨rfl, rfl⟩)

/-! ## The reset sequence (70_reset_and_hazards.md R290) -/

/-- The deassertion of `rst` with a well-formed configuration sets the registers and runs the reset checks. -/
theorem step_deassert {s : State} {rest : List HostInput} (hrst : s.rst = true) (hhost : s.host = .rst false :: rest)
    (wf : s.cfgIn.check = none) :
    step s = .next (resetChecks (resetRegisters s.cfgIn { s with rst := false, host := rest, out := [] })) := by
  rw [step_driveRst hhost]
  exact (driveRst_next_iff _ _ _).mpr (.inr (.inl ⟨rfl, hrst, (startSession_next_iff _ _).mpr ⟨wf, rfl⟩⟩))

/-- The code the reset checks find: no sample rate before an absent table (60_exceptions.md R261). -/
def Cfg.resetCode (c : Cfg) : BitVec 2 :=
  if c.srValid = false then 1#2
  else if c.decEn = true ∧ c.mode = true ∧ c.tblPresent = false then 2#2
  else 0#2

theorem resetChecks_eq {s : State} (clear : s.faultCode = 0#2) :
    resetChecks s =
      { s with
        phase := if s.cfg.resetCode = 0#2 then .trRise else .fault
        faultCode := s.cfg.resetCode } := by
  obtain ⟨rate, h⟩ | ⟨rate, table, absent, h⟩ | ⟨rate, table, h⟩ := resetChecks_cases s
  · have code : s.cfg.resetCode = 1#2 := if_pos rate
    rw [h, code]
    rfl
  · obtain ⟨on, mode⟩ := (tableMode_iff _).mp table
    have code : s.cfg.resetCode = 2#2 := by simp [Cfg.resetCode, rate, on, mode, absent]
    rw [h, code]
    rfl
  · have passes : ¬ (s.cfg.decEn = true ∧ s.cfg.mode = true ∧ s.cfg.tblPresent = false) := by
      rintro ⟨on, mode, absent⟩
      simp [table ((tableMode_iff _).mpr ⟨on, mode⟩)] at absent
    have code : s.cfg.resetCode = 0#2 := by simp [Cfg.resetCode, rate, passes]
    rw [h, code, if_pos rfl, ← clear]

/-- The static weight is the derived one in static mode (10_state.md R26). -/
theorem staticWeight_of_static {c : Cfg} (on : c.decEn = true) (static : c.mode = false) :
    c.staticWeight = if c.stWsel then F64.divPow2 c.stMsb (c.stLast.toNat - c.stFirst.toNat) else c.stLsb :=
  if_pos ((staticMode_iff c).mpr ⟨on, static⟩)

/-- Settles O45: the reset checks write `phase` and `faultCode` on top of the reset values. -/
theorem resetSequenceStartsTheSession : Obligations.ResetSequenceStartsTheSession := by
  refine fun s rest hrst hhost wf => ⟨s.cfgIn.staticWeight, staticWeight_of_static, ?_⟩
  rw [step_deassert hrst hhost wf, resetChecks_eq rfl]
  rfl

/-! ## The state after reset (10_state.md R51) -/

theorem check_bare : Cfg.bare.check = none := by decide

/-- The reset sequence on the configuration of `State.reset` passes its checks and changes nothing. -/
theorem resetChecks_reset : resetChecks (resetRegisters Cfg.bare State.reset) = State.reset := rfl

/-- Settles O46: every register stands at its reset value, where the reset sequence puts it. -/
theorem resetStateHoldsTheResetValues : Obligations.ResetStateHoldsTheResetValues := by
  refine ⟨?_, rfl, rfl, ?_⟩
  · exact ⟨rfl, rfl, rfl, rfl, rfl, rfl, rfl, rfl, rfl, rfl, rfl, rfl, rfl, rfl, rfl, rfl, rfl⟩
  · have started := step_deassert (s := { State.reset with rst := true, host := [.rst false] }) rfl rfl check_bare
    exact started.trans (congrArg _ resetChecks_reset)

/-- Settles O55: a session starts within the invariant, and its stream is empty. -/
theorem resetMeetsTheInvariant : Obligations.ResetMeetsTheInvariant := by
  have inv : State.reset.Inv := resetChecks_reset ▸ inv_resetChecks (s := State.reset) check_bare
  exact streamInv_of_empty inv rfl

end Sys2Proof.Machine
end
